-- ==== Sys2Proof/Word.lean ====
section
/-! DEFINITION. The two word types of the block: bytes and 16-bit words (spec/00_scope.md R5, R40). -/

namespace Sys2Proof

/-- An 8-bit value: a register, a memory byte, an opcode or an immediate byte (R5, R11, R40). -/
abbrev Byte := BitVec 8

/-- A 16-bit value: `PC`, `SP`, a pair view, an address, a 16-bit immediate (R5, R13, R15, R16, R40). -/
abbrev Word := BitVec 16

end Sys2Proof
end

