-- ==== Sys2Proof/Syntax.lean ====
section
/-! DEFINITION. The instructions: one constructor for each of the 169 rows of spec/opcode_table.json, named as the table
spells them, with `m` before a memory operand written in parentheses. No constructor carries an immediate: the immediate
bytes are read by the operation itself at `PC` (30_encoding.md R67, R68, R71; log 5). `Instr.form` gives each row its
generic handler form and register operands (R69, R72). -/

namespace Sys2Proof

/-- The seven registers a 3-bit register field can name (R63). `F` has no code and is reached by its own accessors. -/
inductive Reg where
  | B | C | D | E | H | L | A
deriving DecidableEq, Repr

/-- The pairs of two named 8-bit registers (R13). `AF` is used by `PUSH AF` and `POP AF` only and has its own forms. -/
inductive Pair where
  | BC | DE | HL
deriving DecidableEq, Repr

/-- The high half of a pair: the first letter of its name (R13). -/
def Pair.hi : Pair → Reg
  | .BC => .B | .DE => .D | .HL => .H

/-- The low half of a pair (R13). -/
def Pair.lo : Pair → Reg
  | .BC => .C | .DE => .E | .HL => .L

/-- The operation field `o` of format `ALU_R` (R66). -/
inductive AluOp where
  | add | adc | sub | sbc | and | xor | or | cp
deriving DecidableEq, Repr

/-- The second operand of an 8-bit ALU operation: a register, or the byte at `(HL)` (R63, R121). -/
inductive Operand8 where
  | reg (r : Reg)
  | memHL
deriving DecidableEq, Repr

/-- Every row of spec/opcode_table.json (R69). -/
inductive Instr where
  | nop
  | halt
  | ld_B_B
  | ld_B_C
  | ld_B_D
  | ld_B_E
  | ld_B_H
  | ld_B_L
  | ld_B_A
  | ld_C_B
  | ld_C_C
  | ld_C_D
  | ld_C_E
  | ld_C_H
  | ld_C_L
  | ld_C_A
  | ld_D_B
  | ld_D_C
  | ld_D_D
  | ld_D_E
  | ld_D_H
  | ld_D_L
  | ld_D_A
  | ld_E_B
  | ld_E_C
  | ld_E_D
  | ld_E_E
  | ld_E_H
  | ld_E_L
  | ld_E_A
  | ld_H_B
  | ld_H_C
  | ld_H_D
  | ld_H_E
  | ld_H_H
  | ld_H_L
  | ld_H_A
  | ld_L_B
  | ld_L_C
  | ld_L_D
  | ld_L_E
  | ld_L_H
  | ld_L_L
  | ld_L_A
  | ld_A_B
  | ld_A_C
  | ld_A_D
  | ld_A_E
  | ld_A_H
  | ld_A_L
  | ld_A_A
  | ld_B_n
  | ld_C_n
  | ld_D_n
  | ld_E_n
  | ld_H_n
  | ld_L_n
  | ld_A_n
  | ld_BC_nn
  | ld_DE_nn
  | ld_HL_nn
  | ld_SP_nn
  | ld_A_mHL
  | ld_mHL_B
  | ld_mHL_C
  | ld_mHL_D
  | ld_mHL_E
  | ld_mHL_H
  | ld_mHL_L
  | ld_mHL_A
  | ld_mBC_A
  | ld_mDE_A
  | ld_mHL_n
  | ld_mnn_A
  | ld_mnn_SP
  | ld_A_mnn
  | ldh_mn_A
  | ldh_A_mn
  | ld_mC_A
  | ld_A_mC
  | ld_SP_HL
  | add_A_B
  | add_A_C
  | add_A_D
  | add_A_E
  | add_A_H
  | add_A_L
  | add_A_A
  | add_A_mHL
  | adc_A_B
  | adc_A_C
  | adc_A_D
  | adc_A_E
  | adc_A_H
  | adc_A_L
  | adc_A_A
  | adc_A_mHL
  | sub_B
  | sub_C
  | sub_D
  | sub_E
  | sub_H
  | sub_L
  | sub_A
  | sub_mHL
  | sbc_A_B
  | sbc_A_C
  | sbc_A_D
  | sbc_A_E
  | sbc_A_H
  | sbc_A_L
  | sbc_A_A
  | sbc_A_mHL
  | and_B
  | and_C
  | and_D
  | and_E
  | and_H
  | and_L
  | and_A
  | and_mHL
  | xor_B
  | xor_C
  | xor_D
  | xor_E
  | xor_H
  | xor_L
  | xor_A
  | xor_mHL
  | or_B
  | or_C
  | or_D
  | or_E
  | or_H
  | or_L
  | or_A
  | or_mHL
  | cp_B
  | cp_C
  | cp_D
  | cp_E
  | cp_H
  | cp_L
  | cp_A
  | cp_mHL
  | inc_B
  | inc_C
  | inc_D
  | inc_E
  | inc_H
  | inc_L
  | inc_A
  | inc_mHL
  | inc_BC
  | inc_DE
  | inc_HL
  | inc_SP
  | add_HL_BC
  | add_HL_DE
  | add_HL_HL
  | ld_HL_SPe
  | push_BC
  | push_DE
  | push_HL
  | push_AF
  | pop_BC
  | pop_DE
  | pop_HL
  | pop_AF
deriving DecidableEq, Repr

/-- The generic handler forms of the spec's instruction rules, each with the registers the dispatch table hands it
(R69, R72). -/
inductive Form where
  | nop                              -- R87
  | halt                             -- R88
  | ldRegReg (d s : Reg)             -- R91
  | ldRegImm (r : Reg)               -- R92
  | ldPairImm (p : Pair)             -- R93
  | ldSpImm                          -- R94
  | ldAFromHL                        -- R95
  | ldHLFromReg (r : Reg)            -- R96
  | ldBCFromA                        -- R97
  | ldDEFromA                        -- R98
  | ldHLFromImm                      -- R99
  | ldAbsFromA                       -- R100
  | ldAbsFromSp                      -- R101
  | ldAFromAbs                       -- R102
  | ldhImmFromA                      -- R103
  | ldhAFromImm                      -- R104
  | ldhCFromA                        -- R105
  | ldhAFromC                        -- R106
  | ldSpFromHL                       -- R107
  | alu (o : AluOp) (x : Operand8)   -- R124 to R139
  | incReg (r : Reg)                 -- R140
  | incHLMem                         -- R141
  | incPair (p : Pair)               -- R151
  | incSp                            -- R152
  | addHL (p : Pair)                 -- R153
  | ldHLSpOffset                     -- R160
  | push (p : Pair)                  -- R166
  | pushAF                           -- R167
  | pop (p : Pair)                   -- R168
  | popAF                            -- R169
deriving DecidableEq, Repr

/-- The form and the register operands of each instruction (R69, R72). -/
def Instr.form : Instr → Form
  | .nop => .nop
  | .halt => .halt
  | .ld_B_B => .ldRegReg .B .B
  | .ld_B_C => .ldRegReg .B .C
  | .ld_B_D => .ldRegReg .B .D
  | .ld_B_E => .ldRegReg .B .E
  | .ld_B_H => .ldRegReg .B .H
  | .ld_B_L => .ldRegReg .B .L
  | .ld_B_A => .ldRegReg .B .A
  | .ld_C_B => .ldRegReg .C .B
  | .ld_C_C => .ldRegReg .C .C
  | .ld_C_D => .ldRegReg .C .D
  | .ld_C_E => .ldRegReg .C .E
  | .ld_C_H => .ldRegReg .C .H
  | .ld_C_L => .ldRegReg .C .L
  | .ld_C_A => .ldRegReg .C .A
  | .ld_D_B => .ldRegReg .D .B
  | .ld_D_C => .ldRegReg .D .C
  | .ld_D_D => .ldRegReg .D .D
  | .ld_D_E => .ldRegReg .D .E
  | .ld_D_H => .ldRegReg .D .H
  | .ld_D_L => .ldRegReg .D .L
  | .ld_D_A => .ldRegReg .D .A
  | .ld_E_B => .ldRegReg .E .B
  | .ld_E_C => .ldRegReg .E .C
  | .ld_E_D => .ldRegReg .E .D
  | .ld_E_E => .ldRegReg .E .E
  | .ld_E_H => .ldRegReg .E .H
  | .ld_E_L => .ldRegReg .E .L
  | .ld_E_A => .ldRegReg .E .A
  | .ld_H_B => .ldRegReg .H .B
  | .ld_H_C => .ldRegReg .H .C
  | .ld_H_D => .ldRegReg .H .D
  | .ld_H_E => .ldRegReg .H .E
  | .ld_H_H => .ldRegReg .H .H
  | .ld_H_L => .ldRegReg .H .L
  | .ld_H_A => .ldRegReg .H .A
  | .ld_L_B => .ldRegReg .L .B
  | .ld_L_C => .ldRegReg .L .C
  | .ld_L_D => .ldRegReg .L .D
  | .ld_L_E => .ldRegReg .L .E
  | .ld_L_H => .ldRegReg .L .H
  | .ld_L_L => .ldRegReg .L .L
  | .ld_L_A => .ldRegReg .L .A
  | .ld_A_B => .ldRegReg .A .B
  | .ld_A_C => .ldRegReg .A .C
  | .ld_A_D => .ldRegReg .A .D
  | .ld_A_E => .ldRegReg .A .E
  | .ld_A_H => .ldRegReg .A .H
  | .ld_A_L => .ldRegReg .A .L
  | .ld_A_A => .ldRegReg .A .A
  | .ld_B_n => .ldRegImm .B
  | .ld_C_n => .ldRegImm .C
  | .ld_D_n => .ldRegImm .D
  | .ld_E_n => .ldRegImm .E
  | .ld_H_n => .ldRegImm .H
  | .ld_L_n => .ldRegImm .L
  | .ld_A_n => .ldRegImm .A
  | .ld_BC_nn => .ldPairImm .BC
  | .ld_DE_nn => .ldPairImm .DE
  | .ld_HL_nn => .ldPairImm .HL
  | .ld_SP_nn => .ldSpImm
  | .ld_A_mHL => .ldAFromHL
  | .ld_mHL_B => .ldHLFromReg .B
  | .ld_mHL_C => .ldHLFromReg .C
  | .ld_mHL_D => .ldHLFromReg .D
  | .ld_mHL_E => .ldHLFromReg .E
  | .ld_mHL_H => .ldHLFromReg .H
  | .ld_mHL_L => .ldHLFromReg .L
  | .ld_mHL_A => .ldHLFromReg .A
  | .ld_mBC_A => .ldBCFromA
  | .ld_mDE_A => .ldDEFromA
  | .ld_mHL_n => .ldHLFromImm
  | .ld_mnn_A => .ldAbsFromA
  | .ld_mnn_SP => .ldAbsFromSp
  | .ld_A_mnn => .ldAFromAbs
  | .ldh_mn_A => .ldhImmFromA
  | .ldh_A_mn => .ldhAFromImm
  | .ld_mC_A => .ldhCFromA
  | .ld_A_mC => .ldhAFromC
  | .ld_SP_HL => .ldSpFromHL
  | .add_A_B => .alu .add (.reg .B)
  | .add_A_C => .alu .add (.reg .C)
  | .add_A_D => .alu .add (.reg .D)
  | .add_A_E => .alu .add (.reg .E)
  | .add_A_H => .alu .add (.reg .H)
  | .add_A_L => .alu .add (.reg .L)
  | .add_A_A => .alu .add (.reg .A)
  | .add_A_mHL => .alu .add .memHL
  | .adc_A_B => .alu .adc (.reg .B)
  | .adc_A_C => .alu .adc (.reg .C)
  | .adc_A_D => .alu .adc (.reg .D)
  | .adc_A_E => .alu .adc (.reg .E)
  | .adc_A_H => .alu .adc (.reg .H)
  | .adc_A_L => .alu .adc (.reg .L)
  | .adc_A_A => .alu .adc (.reg .A)
  | .adc_A_mHL => .alu .adc .memHL
  | .sub_B => .alu .sub (.reg .B)
  | .sub_C => .alu .sub (.reg .C)
  | .sub_D => .alu .sub (.reg .D)
  | .sub_E => .alu .sub (.reg .E)
  | .sub_H => .alu .sub (.reg .H)
  | .sub_L => .alu .sub (.reg .L)
  | .sub_A => .alu .sub (.reg .A)
  | .sub_mHL => .alu .sub .memHL
  | .sbc_A_B => .alu .sbc (.reg .B)
  | .sbc_A_C => .alu .sbc (.reg .C)
  | .sbc_A_D => .alu .sbc (.reg .D)
  | .sbc_A_E => .alu .sbc (.reg .E)
  | .sbc_A_H => .alu .sbc (.reg .H)
  | .sbc_A_L => .alu .sbc (.reg .L)
  | .sbc_A_A => .alu .sbc (.reg .A)
  | .sbc_A_mHL => .alu .sbc .memHL
  | .and_B => .alu .and (.reg .B)
  | .and_C => .alu .and (.reg .C)
  | .and_D => .alu .and (.reg .D)
  | .and_E => .alu .and (.reg .E)
  | .and_H => .alu .and (.reg .H)
  | .and_L => .alu .and (.reg .L)
  | .and_A => .alu .and (.reg .A)
  | .and_mHL => .alu .and .memHL
  | .xor_B => .alu .xor (.reg .B)
  | .xor_C => .alu .xor (.reg .C)
  | .xor_D => .alu .xor (.reg .D)
  | .xor_E => .alu .xor (.reg .E)
  | .xor_H => .alu .xor (.reg .H)
  | .xor_L => .alu .xor (.reg .L)
  | .xor_A => .alu .xor (.reg .A)
  | .xor_mHL => .alu .xor .memHL
  | .or_B => .alu .or (.reg .B)
  | .or_C => .alu .or (.reg .C)
  | .or_D => .alu .or (.reg .D)
  | .or_E => .alu .or (.reg .E)
  | .or_H => .alu .or (.reg .H)
  | .or_L => .alu .or (.reg .L)
  | .or_A => .alu .or (.reg .A)
  | .or_mHL => .alu .or .memHL
  | .cp_B => .alu .cp (.reg .B)
  | .cp_C => .alu .cp (.reg .C)
  | .cp_D => .alu .cp (.reg .D)
  | .cp_E => .alu .cp (.reg .E)
  | .cp_H => .alu .cp (.reg .H)
  | .cp_L => .alu .cp (.reg .L)
  | .cp_A => .alu .cp (.reg .A)
  | .cp_mHL => .alu .cp .memHL
  | .inc_B => .incReg .B
  | .inc_C => .incReg .C
  | .inc_D => .incReg .D
  | .inc_E => .incReg .E
  | .inc_H => .incReg .H
  | .inc_L => .incReg .L
  | .inc_A => .incReg .A
  | .inc_mHL => .incHLMem
  | .inc_BC => .incPair .BC
  | .inc_DE => .incPair .DE
  | .inc_HL => .incPair .HL
  | .inc_SP => .incSp
  | .add_HL_BC => .addHL .BC
  | .add_HL_DE => .addHL .DE
  | .add_HL_HL => .addHL .HL
  | .ld_HL_SPe => .ldHLSpOffset
  | .push_BC => .push .BC
  | .push_DE => .push .DE
  | .push_HL => .push .HL
  | .push_AF => .pushAF
  | .pop_BC => .pop .BC
  | .pop_DE => .pop .DE
  | .pop_HL => .pop .HL
  | .pop_AF => .popAF

/-- The length in bytes of a form: one opcode byte and its immediate bytes (R61, R62). -/
def Form.length : Form → Nat
  | .nop | .halt | .ldRegReg _ _ | .ldAFromHL | .ldHLFromReg _ | .ldBCFromA | .ldDEFromA => 1
  | .ldhCFromA | .ldhAFromC | .ldSpFromHL | .alu _ _ | .incReg _ | .incHLMem => 1
  | .incPair _ | .incSp | .addHL _ | .push _ | .pushAF | .pop _ | .popAF => 1
  | .ldRegImm _ | .ldHLFromImm | .ldhImmFromA | .ldhAFromImm | .ldHLSpOffset => 2
  | .ldPairImm _ | .ldSpImm | .ldAbsFromA | .ldAbsFromSp | .ldAFromAbs => 3

/-- The length of an instruction in bytes, 1 to 3 (R61). -/
def Instr.length (i : Instr) : Nat := i.form.length

/-- One instruction as it lies in memory: the instruction its opcode byte selects and its immediate bytes, in address
order (R61, R74). -/
structure Line where
  instr : Instr
  imm : List Byte
deriving DecidableEq, Repr

end Sys2Proof
end

