-- ==== Sys2Proof/WellFormed.lean ====
section
/-! DEFINITION. When a line of a program is well formed: it carries exactly the immediate bytes its instruction reads
(spec/30_encoding.md R61, R62). Every `Instr` alone is well formed: an instruction has no other operand to check (R71). -/

namespace Sys2Proof

/-- One opcode byte and as many immediate bytes as the form consumes (R61). -/
def Line.wellFormed (l : Line) : Bool := l.imm.length + 1 == l.instr.length

end Sys2Proof
end

