-- ==== Sys2Proof/Decode.lean ====
section
/-! DEFINITION. The decoder dispatch table and the encoder. The decoder is the opcode map of spec/30_encoding.md R69
(machine-readable: opcode_table.json) laid out as 16 rows by high nibble; a byte with `none` is one of the 87 unassigned
bytes of R70. The encoder is written separately, from the formats and field codes of R62 to R66. Every byte value is
PRESUMED (the spec marks it general knowledge, adopted by D2): log 2. -/

namespace Sys2Proof

/-- The row of the opcode map for the bytes whose high nibble is `hi` (R69, R70). -/
def opcodeRow (hi : Nat) : List (Option Instr) :=
  match hi with
  | 0x0 =>
    [some .nop, some .ld_BC_nn, some .ld_mBC_A, some .inc_BC,
     some .inc_B, none, some .ld_B_n, none,
     some .ld_mnn_SP, some .add_HL_BC, none, none,
     some .inc_C, none, some .ld_C_n, none]
  | 0x1 =>
    [none, some .ld_DE_nn, some .ld_mDE_A, some .inc_DE,
     some .inc_D, none, some .ld_D_n, none,
     none, some .add_HL_DE, none, none,
     some .inc_E, none, some .ld_E_n, none]
  | 0x2 =>
    [none, some .ld_HL_nn, none, some .inc_HL,
     some .inc_H, none, some .ld_H_n, none,
     none, some .add_HL_HL, none, none,
     some .inc_L, none, some .ld_L_n, none]
  | 0x3 =>
    [none, some .ld_SP_nn, none, some .inc_SP,
     some .inc_mHL, none, some .ld_mHL_n, none,
     none, none, none, none,
     some .inc_A, none, some .ld_A_n, none]
  | 0x4 =>
    [some .ld_B_B, some .ld_B_C, some .ld_B_D, some .ld_B_E,
     some .ld_B_H, some .ld_B_L, none, some .ld_B_A,
     some .ld_C_B, some .ld_C_C, some .ld_C_D, some .ld_C_E,
     some .ld_C_H, some .ld_C_L, none, some .ld_C_A]
  | 0x5 =>
    [some .ld_D_B, some .ld_D_C, some .ld_D_D, some .ld_D_E,
     some .ld_D_H, some .ld_D_L, none, some .ld_D_A,
     some .ld_E_B, some .ld_E_C, some .ld_E_D, some .ld_E_E,
     some .ld_E_H, some .ld_E_L, none, some .ld_E_A]
  | 0x6 =>
    [some .ld_H_B, some .ld_H_C, some .ld_H_D, some .ld_H_E,
     some .ld_H_H, some .ld_H_L, none, some .ld_H_A,
     some .ld_L_B, some .ld_L_C, some .ld_L_D, some .ld_L_E,
     some .ld_L_H, some .ld_L_L, none, some .ld_L_A]
  | 0x7 =>
    [some .ld_mHL_B, some .ld_mHL_C, some .ld_mHL_D, some .ld_mHL_E,
     some .ld_mHL_H, some .ld_mHL_L, some .halt, some .ld_mHL_A,
     some .ld_A_B, some .ld_A_C, some .ld_A_D, some .ld_A_E,
     some .ld_A_H, some .ld_A_L, some .ld_A_mHL, some .ld_A_A]
  | 0x8 =>
    [some .add_A_B, some .add_A_C, some .add_A_D, some .add_A_E,
     some .add_A_H, some .add_A_L, some .add_A_mHL, some .add_A_A,
     some .adc_A_B, some .adc_A_C, some .adc_A_D, some .adc_A_E,
     some .adc_A_H, some .adc_A_L, some .adc_A_mHL, some .adc_A_A]
  | 0x9 =>
    [some .sub_B, some .sub_C, some .sub_D, some .sub_E,
     some .sub_H, some .sub_L, some .sub_mHL, some .sub_A,
     some .sbc_A_B, some .sbc_A_C, some .sbc_A_D, some .sbc_A_E,
     some .sbc_A_H, some .sbc_A_L, some .sbc_A_mHL, some .sbc_A_A]
  | 0xA =>
    [some .and_B, some .and_C, some .and_D, some .and_E,
     some .and_H, some .and_L, some .and_mHL, some .and_A,
     some .xor_B, some .xor_C, some .xor_D, some .xor_E,
     some .xor_H, some .xor_L, some .xor_mHL, some .xor_A]
  | 0xB =>
    [some .or_B, some .or_C, some .or_D, some .or_E,
     some .or_H, some .or_L, some .or_mHL, some .or_A,
     some .cp_B, some .cp_C, some .cp_D, some .cp_E,
     some .cp_H, some .cp_L, some .cp_mHL, some .cp_A]
  | 0xC =>
    [none, some .pop_BC, none, none,
     none, some .push_BC, none, none,
     none, none, none, none,
     none, none, none, none]
  | 0xD =>
    [none, some .pop_DE, none, none,
     none, some .push_DE, none, none,
     none, none, none, none,
     none, none, none, none]
  | 0xE =>
    [some .ldh_mn_A, some .pop_HL, some .ld_mC_A, none,
     none, some .push_HL, none, none,
     none, none, some .ld_mnn_A, none,
     none, none, none, none]
  | 0xF =>
    [some .ldh_A_mn, some .pop_AF, some .ld_A_mC, none,
     none, some .push_AF, none, none,
     some .ld_HL_SPe, some .ld_SP_HL, some .ld_A_mnn, none,
     none, none, none, none]
  | _ => []

/-- `Decode` of R71: total on all 256 byte values, a function of the byte alone. -/
def decodeOpcode (op : Byte) : Option Instr :=
  ((opcodeRow (op.toNat / 16))[op.toNat % 16]?).getD none

/-- `Decode` under a dispatch table: the table of R69, or one that replaces it as a whole (92_eei_decisions.md section 1, D2).
Log 2. -/
def decodeWith (table : Option (List (Byte × Instr))) (op : Byte) : Option Instr :=
  match table with
  | none => decodeOpcode op
  | some rows => (rows.find? fun row => row.1 == op).map fun row => row.2

/-- Why a list of bytes is not the beginning of a program line. -/
inductive DecodeError where
  /-- There is no byte to decode. -/
  | empty
  /-- The first byte is one of the 87 unassigned opcode bytes (R70). -/
  | unassignedOpcode (op : Byte)
  /-- The bytes end before the last immediate byte (R61). -/
  | truncated (i : Instr)
deriving DecidableEq, Repr

/-- A whole line and the bytes after it: the opcode byte decides the instruction and its length, the immediate bytes follow
at increasing addresses (R61). Total: anything else is rejected by name. -/
def decode (bytes : List Byte) : Except DecodeError (Line × List Byte) :=
  match bytes with
  | [] => .error .empty
  | op :: rest =>
    match decodeOpcode op with
    | none => .error (.unassignedOpcode op)
    | some i =>
      if rest.length < i.length - 1 then .error (.truncated i)
      else .ok (⟨i, rest.take (i.length - 1)⟩, rest.drop (i.length - 1))

/-- The 3-bit code of a register (R63). -/
def Reg.code : Reg → BitVec 3
  | .B => 0 | .C => 1 | .D => 2 | .E => 3 | .H => 4 | .L => 5 | .A => 7

/-- The 3-bit code of an ALU operand: a register's, or 6 for `(HL)` (R63). -/
def Operand8.code : Operand8 → BitVec 3
  | .reg r => r.code
  | .memHL => 6

/-- The 2-bit code of a pair in fields `p` and `q` (R64, R65). -/
def Pair.code : Pair → BitVec 2
  | .BC => 0 | .DE => 1 | .HL => 2

/-- The 3-bit code of an ALU operation (R66). -/
def AluOp.code : AluOp → BitVec 3
  | .add => 0 | .adc => 1 | .sub => 2 | .sbc => 3 | .and => 4 | .xor => 5 | .or => 6 | .cp => 7

/-- Format `R_R`: `01dddsss` (R62). -/
def formatRR (d s : BitVec 3) : Byte := 0b01#2 ++ d ++ s

/-- Format `ALU_R`: `10ooosss` (R62). -/
def formatAlu (o s : BitVec 3) : Byte := 0b10#2 ++ o ++ s

/-- Formats `R` and `R_I8`: `00rrr` and a fixed low part, `100` or `110` (R62). -/
def formatR (r low : BitVec 3) : Byte := 0b00#2 ++ r ++ low

/-- Formats `P` and `P_I16`: `00pp` and a fixed low nibble, `0011`, `1001` or `0001` (R62). -/
def formatP (p : BitVec 2) (low : BitVec 4) : Byte := 0b00#2 ++ p ++ low

/-- Format `Q`: `11qq` and a fixed low nibble, `0101` or `0001` (R62). -/
def formatQ (q : BitVec 2) (low : BitVec 4) : Byte := 0b11#2 ++ q ++ low

/-- The opcode byte of a form, built from its format's fields (R62 to R66), or the fixed byte of a format that has none
(R69). -/
def Form.opcode : Form → Byte
  | .nop => 0b00000000
  | .halt => 0b01110110
  | .ldRegReg d s => formatRR d.code s.code
  | .ldRegImm r => formatR r.code 0b110
  | .ldPairImm p => formatP p.code 0b0001
  | .ldSpImm => formatP 3 0b0001
  | .ldAFromHL => 0b01111110
  | .ldHLFromReg r => formatRR 6 r.code
  | .ldBCFromA => 0b00000010
  | .ldDEFromA => 0b00010010
  | .ldHLFromImm => formatR 6 0b110
  | .ldAbsFromA => 0b11101010
  | .ldAbsFromSp => 0b00001000
  | .ldAFromAbs => 0b11111010
  | .ldhImmFromA => 0b11100000
  | .ldhAFromImm => 0b11110000
  | .ldhCFromA => 0b11100010
  | .ldhAFromC => 0b11110010
  | .ldSpFromHL => 0b11111001
  | .alu o x => formatAlu o.code x.code
  | .incReg r => formatR r.code 0b100
  | .incHLMem => formatR 6 0b100
  | .incPair p => formatP p.code 0b0011
  | .incSp => formatP 3 0b0011
  | .addHL p => formatP p.code 0b1001
  | .ldHLSpOffset => 0b11111000
  | .push p => formatQ p.code 0b0101
  | .pushAF => formatQ 3 0b0101
  | .pop p => formatQ p.code 0b0001
  | .popAF => formatQ 3 0b0001

/-- The opcode byte of an instruction. -/
def encodeOpcode (i : Instr) : Byte := i.form.opcode

/-- The bytes of a line in memory order: the opcode byte, then the immediate bytes (R61). -/
def encode (l : Line) : List Byte := encodeOpcode l.instr :: l.imm

/-- The three bytes of an instruction whose bits are `w`, bit 0 being the least significant bit of the first byte; every
bit from `nbits` on is 0. -/
def tableBytes (nbits w : Nat) : List Byte :=
  let v := w % 2 ^ nbits
  [BitVec.ofNat 8 v, BitVec.ofNat 8 (v / 256), BitVec.ofNat 8 (v / 65536)]

/-- The instruction the decoder reads from an instruction word of the opcode table. -/
def decodeTableWord (nbits w : Nat) : Option Instr :=
  match decode (tableBytes nbits w) with
  | .ok (l, _) => some l.instr
  | .error _ => none

end Sys2Proof
end

