-- ==== Sys2Proof/Machine/Bits.lean ====
section
/-! DEFINITION. The bit-field, byte-order and sign-extension helpers of the notation (spec/00_scope.md section 6). -/

namespace Sys2Proof.Machine

/-- `v[15:8]`. -/
def hiByte (v : Word) : Byte := v.extractLsb' 8 8

/-- `v[7:0]`. -/
def loByte (v : Word) : Byte := v.extractLsb' 0 8

/-- `hi ++ lo`: `(hi << 8) | lo` (R13). -/
def joinBytes (hi lo : Byte) : Word := hi ++ lo

/-- `sext_16(v)`: `v` if `v < 128`, else `v + 0xFF00`. -/
def signExtend16 (v : Byte) : Word := v.signExtend 16

/-- `v & 0xF` as a number: the low nibble. -/
def lowNibble (v : Byte) : Nat := (v &&& 0x0F#8).toNat

end Sys2Proof.Machine
end

