-- ==== Sys2Proof/Config.lean ====
section
/-! DEFINITION. The implementation parameters the spec leaves to the machine (spec/00_scope.md R6, 92_eei_decisions.md
section 1). They are plain data held beside the state in `State.params`, so that a statement over all states covers every
choice of them; no step changes them. DESIGN CHOICE, log 22. -/

namespace Sys2Proof

/-- The two kinds of byte access of the memory port (R29 `mem_rd`, `mem_wr`). -/
inductive AccessKind where
  | read
  | write
deriving DecidableEq, Repr

/-- A range of addresses, `first` to `last`, at which the memory collaborator fails a read, a write or both
(`P_MEM`, R51). Log 13. -/
structure FailRange where
  first : Nat
  last : Nat
  reads : Bool
  writes : Bool
deriving DecidableEq, Repr

/-- A range of addresses, `first` to `last`, behind which the memory collaborator is no plain RAM: it answers as the
environment says (`P_MEM`, R49). Log 13. -/
structure OpenRange where
  first : Nat
  last : Nat
deriving DecidableEq, Repr

/-- The named parameters of R6 and of 92_eei_decisions.md section 1. -/
structure Params where
  /-- `P_CLOCK_BITS`: the width of `clock_m` and `clock_t`; `none` is unbounded, the default (R22, D14). Log 12. -/
  clockBits : Option Nat := none
  /-- `P_MEM`: where an access always fails; the default never fails (R51, D9, D18). Log 13. -/
  memFails : List FailRange := []
  /-- `P_MEM`: where the collaborator is no plain RAM; the default is RAM throughout (R49, D18). Log 13. -/
  openRanges : List OpenRange := []
  /-- The dispatch table: `none` is the default, the 169 rows of R69; else the whole table, an opcode byte in none of its
  rows being unassigned (D2). Log 2. -/
  table : Option (List (Byte × Instr)) := none
  /-- `P_WAKE_HAVOC`: whether a `Wake` may also write `PC`, `SP` and two bytes; default false (R181, D7). Log 11. -/
  wakeHavoc : Bool := false
deriving DecidableEq, Repr

end Sys2Proof
end

