-- ==== Sys2Proof/Machine/State.lean ====
section
/-! DEFINITION. The state of the machine as plain data: everything spec/10_state.md gives the block, the memory behind its
port (spec/20_memory.md), and four fields of the model's own (`bus`, `schedule`, `answers`, `params`), and the state after
reset. -/

namespace Sys2Proof.Machine

/-- The seven general 8-bit registers (R10, R11). -/
structure RegFile where
  a : Byte
  b : Byte
  c : Byte
  d : Byte
  e : Byte
  h : Byte
  l : Byte
deriving DecidableEq, Repr

/-- The four flags by name (R18). -/
inductive Flag where
  | Z | N | Hf | Cf
deriving DecidableEq, Repr

/-- The storage of the flag byte `F`: its top four bits. Bits 3 to 0 are not storage and read as 0 (R17, R18). Log 4. -/
structure Flags where
  z : Bool
  n : Bool
  h : Bool
  c : Bool
deriving DecidableEq, Repr

/-- The memory behind the port as a list of address and byte pairs, in the canonical form of `Memory.wf`. Log 1. -/
abbrev Memory := List Host.Cell

/-- One byte access as it passes over the ports `mem_addr`, `mem_rd`, `mem_wr`, `mem_wdata`, `mem_rdata` (R29, R47). -/
inductive Access where
  | read (addr : Word) (v : Byte)
  | write (addr : Word) (v : Byte)
deriving DecidableEq, Repr

/-- What a waking environment writes under `P_WAKE_HAVOC`: `PC`, `SP` and the two bytes at the new `SP` (R181). Log 11. -/
structure Havoc where
  pc : Word
  sp : Word
  lo : Byte
  hi : Byte
deriving DecidableEq, Repr

/-- The external events the owner raises at one boundary between two steps (R178 to R180, R182). -/
structure Events where
  reset : Bool := false
  start : Bool := false
  wake : Bool := false
  havoc : Option Havoc := none
deriving DecidableEq, Repr

/-- What a memory collaborator that is no plain RAM does with one access: it answers a byte (a write it takes, whatever the
byte) or it fails (R49, R51). Log 13. -/
inductive Answer where
  | byte (v : Byte)
  | fail
deriving DecidableEq, Repr

/-- Whose turn is next: the core's, to take a step; the owner's, to raise events; or the memory collaborator's own reset, a
separate act of the owner (R7, R196). `image` is what that reset leaves where `P_MEM` is not the default, which the spec does
not say: arbitrary data of the turn (DESIGN CHOICE). Log 9, log 25. -/
inductive Turn where
  | core
  | owner (ev : Events)
  | memoryReset (image : List (Word × Byte))
deriving DecidableEq, Repr

/-- The state. The pairs `BC`, `DE`, `HL`, `AF` are views, not state (R13); there is no other state (R27). -/
structure State where
  /-- `A B C D E H L` (R10). -/
  regs : RegFile
  /-- `F` (R10, R17). -/
  flags : Flags
  /-- `PC` (R15). -/
  pc : Word
  /-- `SP` (R16). -/
  sp : Word
  /-- `m`: machine cycles of the most recent instruction (R21). Log 20. -/
  m : Nat
  /-- `t`: cpu cycles of the most recent instruction (R21). Log 20. -/
  t : Nat
  /-- `clock_m`: machine cycles since the last reset (R22). Log 12. -/
  clockM : Nat
  /-- `clock_t`: cpu cycles since the last reset (R22). Log 12. -/
  clockT : Nat
  /-- `halted` (R23). -/
  halted : Bool
  /-- `stopped` (R24). -/
  stopped : Bool
  /-- The 65536 bytes behind the memory port (R40, R41). -/
  mem : Memory
  /-- The model's own: the accesses of the most recent instruction transaction, in order (R47, R49). Log 15. -/
  bus : List Access
  /-- The model's own: the turns to come, soonest first; with none listed the core moves (R7, R182). Log 9. -/
  schedule : List Turn
  /-- The model's own: what the collaborator will answer to the next accesses in its open ranges, soonest first (R49, R51).
  Log 13. -/
  answers : List Answer
  /-- The model's own: the implementation parameters, which no step changes (R6). Log 22. -/
  params : Params
deriving DecidableEq, Repr

/-- Why the machine stops with a fault. -/
inductive Fault where
  /-- Raised by every byte access that the memory collaborator fails; it cannot occur with the default `P_MEM`. The run is
  over and nothing is claimed of the state (R51, U2). Safe: the model stops where the state is unspecified. -/
  | memoryAccess (kind : AccessKind) (addr : Word)
deriving DecidableEq, Repr

/-- Why a step has no meaning. -/
inductive Refusal where
  /-- Raised by `exec` for an instruction without a meaning; no instruction of this model answers it. Safe. -/
  | notModelled (mnemonic : String)
  /-- Raised by the core's step when the dispatch table in force does not assign the fetched byte, by default one of the 87
  unassigned opcodes: `decode_valid` is false and the state is unspecified (R70, U1). Safe. -/
  | unassignedOpcode (op : Byte)
deriving DecidableEq, Repr

/-- The state after `Reset`, which is the power-on state too (R26, R195). Memory has nothing listed (log 1); the model's own
fields are empty and the parameters are the spec's defaults (log 22). -/
def State.reset : State where
  regs := { a := 0x00, b := 0x00, c := 0x00, d := 0x00, e := 0x00, h := 0x00, l := 0x00 }
  flags := { z := false, n := false, h := false, c := false }
  pc := 0x0000
  sp := 0x0000
  m := 0
  t := 0
  clockM := 0
  clockT := 0
  halted := false
  stopped := true
  mem := []
  bus := []
  schedule := []
  answers := []
  params := {}

end Sys2Proof.Machine
end

