-- ==== Sys2Proof/Machine/Flags.lean ====
section
/-! DEFINITION. The flag encoder (spec/10_state.md R17 to R20) and every flag computation of the block: the 8-bit adder and
subtractor (R122, R123), the logic operations (R132 to R137), the increments (R140, R141), the 16-bit add (R153) and the
stack-pointer offset (R160). Sums are exact natural numbers or integers, narrowed once at the end. -/

namespace Sys2Proof.Machine

/-- The position mask of a flag in `F` (R18). -/
def Flag.mask : Flag → Byte
  | .Z => 0x80
  | .N => 0x40
  | .Hf => 0x20
  | .Cf => 0x10

/-- `getFlag` (R20). -/
def Flags.get (f : Flags) : Flag → Bool
  | .Z => f.z
  | .N => f.n
  | .Hf => f.h
  | .Cf => f.c

/-- `setFlag`: one flag is written, the others are left untouched (R19). -/
def Flags.set (f : Flags) (fl : Flag) (b : Bool) : Flags :=
  match fl with
  | .Z => { f with z := b }
  | .N => { f with n := b }
  | .Hf => { f with h := b }
  | .Cf => { f with c := b }

/-- The byte `F` reads as: `Z N Hf Cf 0 0 0 0` (R17, R18). -/
def Flags.toByte (f : Flags) : Byte :=
  (if f.z then Flag.Z.mask else 0) ||| (if f.n then Flag.N.mask else 0) |||
    (if f.h then Flag.Hf.mask else 0) ||| (if f.c then Flag.Cf.mask else 0)

/-- A write of `F` as a whole byte: bits 7 to 4 are stored, bits 3 to 0 are dropped (R17, R169; D12). Log 4. -/
def Flags.ofByte (v : Byte) : Flags where
  z := (v &&& Flag.Z.mask) != 0
  n := (v &&& Flag.N.mask) != 0
  h := (v &&& Flag.Hf.mask) != 0
  c := (v &&& Flag.Cf.mask) != 0

/-- `AddCore(a, x, cin)`: the result and all four flags (R122). -/
def addCore (a x : Byte) (cin : Bool) : Byte × Flags :=
  let sum := a.toNat + x.toNat + cin.toNat
  let result := BitVec.ofNat 8 sum
  (result,
    { z := result == 0
      n := false
      h := decide (lowNibble a + lowNibble x + cin.toNat > 0xF)
      c := decide (sum > 0xFF) })

/-- `SubCore(a, x, cin)`: the result and all four flags (R123). -/
def subCore (a x : Byte) (cin : Bool) : Byte × Flags :=
  let diff : Int := (a.toNat : Int) - (x.toNat : Int) - (cin.toNat : Int)
  let result := BitVec.ofInt 8 diff
  (result,
    { z := result == 0
      n := true
      h := decide (lowNibble x + cin.toNat > lowNibble a)
      c := decide (x.toNat + cin.toNat > a.toNat) })

/-- `AND`: the result and all four flags; all but `Z` are advisory in the source (R132; K3). Log 16. -/
def andCore (a x : Byte) : Byte × Flags :=
  (a &&& x, { z := (a &&& x) == 0, n := false, h := true, c := false })

/-- `XOR`: the result and all four flags; all but `Z` are advisory in the source (R134; K3). Log 16. -/
def xorCore (a x : Byte) : Byte × Flags :=
  (a ^^^ x, { z := (a ^^^ x) == 0, n := false, h := false, c := false })

/-- `OR`: the result and all four flags; all but `Z` are advisory in the source (R136; K3). Log 16. -/
def orCore (a x : Byte) : Byte × Flags :=
  (a ||| x, { z := (a ||| x) == 0, n := false, h := false, c := false })

/-- The 8-bit increment: the new value and the flags, `Cf` kept (R140, R141). -/
def incCore (old : Byte) (f : Flags) : Byte × Flags :=
  let new := BitVec.ofNat 8 (old.toNat + 1)
  (new, { f with z := new == 0, n := false, h := lowNibble old == 0xF })

/-- The 16-bit add: the sum and the flags, `N` cleared and `Z` kept (R153; D11, K4). Log 17. -/
def addWordCore (a x : Word) (f : Flags) : Word × Flags :=
  let sum := a.toNat + x.toNat
  (BitVec.ofNat 16 sum,
    { f with
      n := false
      h := decide ((a &&& 0x0FFF#16).toNat + (x &&& 0x0FFF#16).toNat > 0x0FFF)
      c := decide (sum > 0xFFFF) })

/-- `SP + e`: the stored value uses the signed `e`, the flags the raw unsigned `e`; `Z` and `N` kept (R160; D10). Log 18. -/
def spOffsetCore (sp : Word) (e : Byte) (f : Flags) : Word × Flags :=
  (sp + signExtend16 e,
    { f with
      h := decide ((sp &&& 0x000F#16).toNat + lowNibble e > 0x0F)
      c := decide ((sp &&& 0x00FF#16).toNat + e.toNat > 0xFF) })

end Sys2Proof.Machine
end

