-- ==== Sys2Proof/Machine/Ops.lean ====
section
/-! DEFINITION. The named operations over memory, registers, counters and the memory port. The block takes no exception and
returns from none (spec/60_exceptions.md R175, R183, R184), so there is no entry and no return here; what reaches the core
from outside is in Machine/Events.lean. -/

namespace Sys2Proof.Machine

/-- Run `k` on the value of a part that went well; a fault or a refusal of the part is that of the whole. -/
def andThen {σ τ : Type} (o : Host.Outcome σ Fault Refusal) (k : σ → Host.Outcome τ Fault Refusal) :
    Host.Outcome τ Fault Refusal :=
  match o with
  | .next x => k x
  | .fault f => .fault f
  | .refused r => .refused r

/-! ### Memory as data -/

/-- What an unlisted address reads as (R196, D18; DESIGN CHOICE for the power-on contents, log 1). -/
def Memory.unlisted : Byte := 0x00

/-- The byte at an address. -/
def Memory.read (m : Memory) (a : Nat) : Byte :=
  match m with
  | [] => Memory.unlisted
  | (b, v) :: rest => if b = a then v else Memory.read rest a

/-- Take every entry of an address off the list. -/
def Memory.clear (m : Memory) (a : Nat) : Memory :=
  match m with
  | [] => []
  | (b, v) :: rest => if b = a then Memory.clear rest a else (b, v) :: Memory.clear rest a

/-- Put an entry before the first entry of a higher address. -/
def Memory.place (m : Memory) (a : Nat) (v : Byte) : Memory :=
  match m with
  | [] => [(a, v)]
  | (b, w) :: rest => if a < b then (a, v) :: (b, w) :: rest else (b, w) :: Memory.place rest a v

/-- Replace the content of one address and nothing else (R42), in the canonical form. -/
def Memory.write (m : Memory) (a : Nat) (v : Byte) : Memory :=
  if v = Memory.unlisted then Memory.clear m a else Memory.place (Memory.clear m a) a v

/-- The canonical form from an address on: strictly rising, inside the 65536 bytes, no entry equal to an unlisted byte. -/
def Memory.wfFrom (lo : Nat) (m : Memory) : Bool :=
  match m with
  | [] => true
  | (a, v) :: rest => decide (lo ≤ a) && decide (a < 65536) && (v != Memory.unlisted) && Memory.wfFrom (a + 1) rest

/-- The canonical form, in which equal memories are equal lists. -/
def Memory.wf (m : Memory) : Bool := Memory.wfFrom 0 m

/-! ### Registers, pairs, flags -/

/-- The register a name stands for (R10). -/
def RegFile.get (f : RegFile) : Reg → Byte
  | .A => f.a
  | .B => f.b
  | .C => f.c
  | .D => f.d
  | .E => f.e
  | .H => f.h
  | .L => f.l

/-- Write one register. -/
def RegFile.set (f : RegFile) (r : Reg) (v : Byte) : RegFile :=
  match r with
  | .A => { f with a := v }
  | .B => { f with b := v }
  | .C => { f with c := v }
  | .D => { f with d := v }
  | .E => { f with e := v }
  | .H => { f with h := v }
  | .L => { f with l := v }

/-- `r8[r]` for the seven general registers (R11). -/
def State.reg (s : State) (r : Reg) : Byte := s.regs.get r

/-- `r8[r] <- v` for the seven general registers (R11). -/
def State.setReg (s : State) (r : Reg) (v : Byte) : State := { s with regs := s.regs.set r v }

/-- `rp[h,l]`: the view of two registers, high half first (R13). -/
def State.pair (s : State) (p : Pair) : Word := joinBytes (s.reg p.hi) (s.reg p.lo)

/-- `rp[h,l] <- v` (R13). -/
def State.setPair (s : State) (p : Pair) (v : Word) : State :=
  (s.setReg p.hi (hiByte v)).setReg p.lo (loByte v)

/-- One flag (R20). -/
def State.flag (s : State) (f : Flag) : Bool := s.flags.get f

/-- Replace the stored flags. -/
def State.setFlags (s : State) (f : Flags) : State := { s with flags := f }

/-- The byte `F` reads as (R17). -/
def State.readF (s : State) : Byte := s.flags.toByte

/-- `F <- v` as a whole byte: `v & 0xF0` (R17). -/
def State.writeF (s : State) (v : Byte) : State := s.setFlags (Flags.ofByte v)

/-- The pair view `AF` (R13). -/
def State.pairAF (s : State) : Word := joinBytes (s.reg .A) s.readF

/-- `AF <- v` (R13, R14). -/
def State.setPairAF (s : State) (v : Word) : State := (s.setReg .A (hiByte v)).writeF (loByte v)

/-- `PC <- v`. -/
def State.setPc (s : State) (v : Word) : State := { s with pc := v }

/-- `SP <- v`. -/
def State.setSp (s : State) (v : Word) : State := { s with sp := v }

/-- `halted <- b`. -/
def State.setHalted (s : State) (b : Bool) : State := { s with halted := b }

/-- `stopped <- b`. -/
def State.setStopped (s : State) (b : Bool) : State := { s with stopped := b }

/-! ### Clock accounting -/

/-- A cumulative counter's value: modulo `2^P_CLOCK_BITS` if that parameter is finite (R22, R83). Log 12. -/
def wrapClock (bits : Option Nat) (n : Nat) : Nat :=
  match bits with
  | none => n
  | some k => n % 2 ^ k

/-- `Clock(mc, tc)` (R83). -/
def State.clock (s : State) (mc tc : Nat) : State :=
  { s with
    m := mc
    t := tc
    clockM := wrapClock s.params.clockBits (s.clockM + mc)
    clockT := wrapClock s.params.clockBits (s.clockT + tc) }

/-! ### The memory port -/

/-- Whether a range fails this kind of access at this address. -/
def FailRange.hits (f : FailRange) (k : AccessKind) (a : Word) : Bool :=
  decide (f.first ≤ a.toNat) && decide (a.toNat ≤ f.last) &&
    (match k with
     | .read => f.reads
     | .write => f.writes)

/-- Whether an address lies in a range. -/
def OpenRange.holds (r : OpenRange) (a : Word) : Bool := decide (r.first ≤ a.toNat) && decide (a.toNat ≤ r.last)

/-- The byte of RAM a 16-bit address holds. -/
def State.byteAt (s : State) (a : Word) : Byte := s.mem.read a.toNat

/-- Replace the byte of RAM at an address. -/
def State.putByte (s : State) (a : Word) (v : Byte) : State := { s with mem := s.mem.write a.toNat v }

/-- Whether the collaborator is no plain RAM at an address (R49). Log 13. -/
def State.isOpen (s : State) (a : Word) : Bool := s.params.openRanges.any fun r => OpenRange.holds r a

/-- What the environment says of an access at an address: its next answer in an open range, and nothing elsewhere or when it
has no answer left, where the collaborator does as plain RAM does. Log 13. -/
def State.answer (s : State) (a : Word) : Option Answer := if s.isOpen a then s.answers.head? else none

/-- Whether the memory collaborator fails an access now (R51). Log 13. -/
def State.accessFails (s : State) (k : AccessKind) (a : Word) : Bool :=
  (s.params.memFails.any fun f => FailRange.hits f k a) || s.answer a == some .fail

/-- The byte the collaborator answers to a read now: the content of the address (R41), or the environment's answer (R49). -/
def State.readValue (s : State) (a : Word) : Byte :=
  match s.answer a with
  | some (.byte v) => v
  | _ => s.byteAt a

/-- An access in an open range takes the environment's answer off. -/
def State.takeAnswer (s : State) (a : Word) : State :=
  { s with answers := if s.isOpen a then s.answers.tail else s.answers }

/-- A write as the collaborator takes it: RAM replaces the content and nothing else (R42); where the environment answers, its
content is the environment's and RAM is left alone (R49). -/
def State.storeByte (s : State) (a : Word) (v : Byte) : State :=
  { s.takeAnswer a with mem := if (s.answer a).isSome then s.mem else s.mem.write a.toNat v }

/-- Note an access on the port (R29, R47). Log 15. -/
def State.noteAccess (s : State) (x : Access) : State := { s with bus := s.bus ++ [x] }

/-- `MemRead(addr, 1)` (R41, R49, R51). -/
def readByte (a : Word) (s : State) : Host.Outcome (Byte × State) Fault Refusal :=
  if s.accessFails .read a then .fault (.memoryAccess .read a)
  else .next (s.readValue a, (s.takeAnswer a).noteAccess (.read a (s.readValue a)))

/-- `MemWrite(addr, 1, v)` (R42, R49, R51). -/
def writeByte (a : Word) (v : Byte) (s : State) : Host.Outcome State Fault Refusal :=
  if s.accessFails .write a then .fault (.memoryAccess .write a)
  else .next ((s.storeByte a v).noteAccess (.write a v))

/-- `MemRead(addr, 2)`: low byte first, the second address modulo 65536 (R43; D8). Log 14. -/
def readWord (a : Word) (s : State) : Host.Outcome (Word × State) Fault Refusal :=
  andThen (readByte a s) fun lo =>
    andThen (readByte (a + 1) lo.2) fun hi =>
      .next (joinBytes hi.1 lo.1, hi.2)

/-- `MemWrite(addr, 2, v)`: low byte first, the second address modulo 65536 (R44; D8). Log 14. -/
def writeWord (a : Word) (v : Word) (s : State) : Host.Outcome State Fault Refusal :=
  andThen (writeByte a (loByte v) s) fun s1 => writeByte (a + 1) (hiByte v) s1

/-- Read the byte at `PC` and move `PC` past it, modulo 65536 (R15, R67). -/
def fetchByte (s : State) : Host.Outcome (Byte × State) Fault Refusal :=
  andThen (readByte s.pc s) fun r => .next (r.1, r.2.setPc (r.2.pc + 1))

/-- `Imm8()` (R67). -/
def imm8 (s : State) : Host.Outcome (Byte × State) Fault Refusal := fetchByte s

/-- `Imm16()`: low byte at the lower address (R68). -/
def imm16 (s : State) : Host.Outcome (Word × State) Fault Refusal :=
  andThen (imm8 s) fun lo =>
    andThen (imm8 lo.2) fun hi =>
      .next (joinBytes hi.1 lo.1, hi.2)

/-- The opcode fetch: read at `PC`, then `PC` plus one, before the operation starts (R81; D4). Log 6. -/
def fetchOpcode (s : State) : Host.Outcome (Byte × State) Fault Refusal := fetchByte s

/-! ### The stack -/

/-- `SP <- SP - 1; MemWrite(SP, 1, v)` (R165, R166). -/
def pushByte (v : Byte) (s : State) : Host.Outcome State Fault Refusal :=
  writeByte (s.sp - 1) v (s.setSp (s.sp - 1))

/-- The generic PUSH of two bytes: the high one first (R166). -/
def pushBytes (hi lo : Byte) (s : State) : Host.Outcome State Fault Refusal :=
  andThen (pushByte hi s) fun s1 => pushByte lo s1

/-- The generic POP: the byte at `SP`, then the byte at `SP + 1`, then `SP` plus two. Answers the high and the low byte
(R168). -/
def popBytes (s : State) : Host.Outcome ((Byte × Byte) × State) Fault Refusal :=
  andThen (readByte s.sp s) fun lo =>
    andThen (readByte (lo.2.sp + 1) lo.2) fun hi =>
      .next ((hi.1, lo.1), hi.2.setSp (hi.2.sp + 2))

end Sys2Proof.Machine
end

