-- ==== Sys2Proof/Machine/Operands.lean ====
section
/-! DEFINITION. The addressing modes and operand forms (spec/41_load.md R108, spec/42_alu8.md R121). -/

namespace Sys2Proof.Machine

/-- The high-page address `0xFF00 + offset`, the offset zero-extended: 0xFF00 to 0xFFFF, never wrapping (R50, R103). -/
def highPage (offset : Byte) : Word := joinBytes 0xFF#8 offset

/-- The second operand `x` of an 8-bit ALU operation: a register, or the byte at `HL`, read exactly once (R121). -/
def readOperand (x : Operand8) (s : State) : Host.Outcome (Byte × State) Fault Refusal :=
  match x with
  | .reg r => .next (s.reg r, s)
  | .memHL => readByte (s.pair .HL) s

/-- The cpu cycles of an 8-bit ALU operation: 4 with a register, 8 with `(HL)` (R121). -/
def operandCycles : Operand8 → Nat
  | .reg _ => 4
  | .memHL => 8

end Sys2Proof.Machine
end

