-- ==== Sys2Proof/Machine/Alu16.lean ====
section
/-! DEFINITION. The 16-bit arithmetic family (spec/43_alu16.md R151 to R153) and `LD HL,SP+e` (spec/44_ldhl_sp_e.md R160). -/

namespace Sys2Proof.Machine

/-! ### Shared operations -/

/-- `INC rr`: the pair plus one, modulo 65536; no flags, 1 / 8 (R151). -/
def incPair (p : Pair) (s : State) : Host.Outcome State Fault Refusal := .next ((s.setPair p (s.pair p + 1)).clock 1 8)

/-- `INC SP`: no flags, 1 / 8 (R152). -/
def incSp (s : State) : Host.Outcome State Fault Refusal := .next ((s.setSp (s.sp + 1)).clock 1 8)

/-- `ADD HL,rr`: the second pair is read before `HL` is written, 1 / 8 (R153). -/
def addToHL (p : Pair) (s : State) : Host.Outcome State Fault Refusal :=
  let out := addWordCore (s.pair .HL) (s.pair p) s.flags
  .next (((s.setFlags out.2).setPair .HL out.1).clock 1 8)

/-- `LD HL,SP+e`, 2 / 12 (R160). -/
def loadHLSpOffset (s : State) : Host.Outcome State Fault Refusal :=
  andThen (imm8 s) fun e =>
    let out := spOffsetCore e.2.sp e.1 e.2.flags
    .next (((e.2.setFlags out.2).setPair .HL out.1).clock 2 12)

/-! ### One meaning for each row of the opcode table -/

/-- `INC BC`, 0x03 (R151). -/
def execInc_BC (s : State) : Host.Outcome State Fault Refusal := incPair .BC s

/-- `INC DE`, 0x13 (R151). -/
def execInc_DE (s : State) : Host.Outcome State Fault Refusal := incPair .DE s

/-- `INC HL`, 0x23 (R151). -/
def execInc_HL (s : State) : Host.Outcome State Fault Refusal := incPair .HL s

/-- `INC SP`, 0x33 (R152). -/
def execInc_SP (s : State) : Host.Outcome State Fault Refusal := incSp s

/-- `ADD HL,BC`, 0x09 (R153). -/
def execAdd_HL_BC (s : State) : Host.Outcome State Fault Refusal := addToHL .BC s

/-- `ADD HL,DE`, 0x19 (R153). -/
def execAdd_HL_DE (s : State) : Host.Outcome State Fault Refusal := addToHL .DE s

/-- `ADD HL,HL`, 0x29 (R153). -/
def execAdd_HL_HL (s : State) : Host.Outcome State Fault Refusal := addToHL .HL s

/-- `LD HL,SP+e`, 0xF8 (R160). -/
def execLd_HL_SPe (s : State) : Host.Outcome State Fault Refusal := loadHLSpOffset s

end Sys2Proof.Machine
end

