-- ==== Sys2Proof/Machine/Alu8.lean ====
section
/-! DEFINITION. The 8-bit arithmetic and logic family (spec/42_alu8.md R124 to R141). `A` is the first operand and, but for
`CP`, the destination; the second operand is a register or the byte at `HL` (R121). -/

namespace Sys2Proof.Machine

/-! ### Shared operations -/

/-- An operation of `A` and the second operand whose result goes to `A` and whose flags are all written; `f` is handed the
Carry flag before the instruction (R121). -/
def accumulate (f : Byte → Byte → Bool → Byte × Flags) (x : Operand8) (s : State) : Host.Outcome State Fault Refusal :=
  andThen (readOperand x s) fun v =>
    let out := f (v.2.reg .A) v.1 v.2.flags.c
    .next (((v.2.setReg .A out.1).setFlags out.2).clock 1 (operandCycles x))

/-- `ADD A,x` (R124, R125). -/
def aluAdd (x : Operand8) (s : State) : Host.Outcome State Fault Refusal := accumulate (fun a v _ => addCore a v false) x s

/-- `ADC A,x`: the carry in is `Cf` (R126, R127). -/
def aluAdc (x : Operand8) (s : State) : Host.Outcome State Fault Refusal := accumulate addCore x s

/-- `SUB x` (R128, R129). -/
def aluSub (x : Operand8) (s : State) : Host.Outcome State Fault Refusal := accumulate (fun a v _ => subCore a v false) x s

/-- `SBC A,x`: the borrow in is `Cf` (R130, R131). -/
def aluSbc (x : Operand8) (s : State) : Host.Outcome State Fault Refusal := accumulate subCore x s

/-- `AND x` (R132, R133). -/
def aluAnd (x : Operand8) (s : State) : Host.Outcome State Fault Refusal := accumulate (fun a v _ => andCore a v) x s

/-- `XOR x` (R134, R135). -/
def aluXor (x : Operand8) (s : State) : Host.Outcome State Fault Refusal := accumulate (fun a v _ => xorCore a v) x s

/-- `OR x` (R136, R137). -/
def aluOr (x : Operand8) (s : State) : Host.Outcome State Fault Refusal := accumulate (fun a v _ => orCore a v) x s

/-- `CP x`: the flags of `SUB`, the result discarded (R138, R139). -/
def aluCp (x : Operand8) (s : State) : Host.Outcome State Fault Refusal :=
  andThen (readOperand x s) fun v =>
    .next ((v.2.setFlags (subCore (v.2.reg .A) v.1 false).2).clock 1 (operandCycles x))

/-- `INC r`: `Cf` kept, 1 / 4 (R140). -/
def incReg (r : Reg) (s : State) : Host.Outcome State Fault Refusal :=
  let out := incCore (s.reg r) s.flags
  .next (((s.setReg r out.1).setFlags out.2).clock 1 4)

/-- `INC (HL)`: one read, then one write of the same address; `Cf` kept, 1 / 12 (R141; D22, log 15). -/
def incMemHL (s : State) : Host.Outcome State Fault Refusal :=
  andThen (readByte (s.pair .HL) s) fun v =>
    let out := incCore v.1 v.2.flags
    andThen (writeByte (s.pair .HL) out.1 v.2) fun s1 => .next ((s1.setFlags out.2).clock 1 12)

/-! ### One meaning for each row of the opcode table -/

/-- `ADD A,B`, 0x80 (R124). -/
def execAdd_A_B (s : State) : Host.Outcome State Fault Refusal := aluAdd (.reg .B) s

/-- `ADD A,C`, 0x81 (R124). -/
def execAdd_A_C (s : State) : Host.Outcome State Fault Refusal := aluAdd (.reg .C) s

/-- `ADD A,D`, 0x82 (R124). -/
def execAdd_A_D (s : State) : Host.Outcome State Fault Refusal := aluAdd (.reg .D) s

/-- `ADD A,E`, 0x83 (R124). -/
def execAdd_A_E (s : State) : Host.Outcome State Fault Refusal := aluAdd (.reg .E) s

/-- `ADD A,H`, 0x84 (R124). -/
def execAdd_A_H (s : State) : Host.Outcome State Fault Refusal := aluAdd (.reg .H) s

/-- `ADD A,L`, 0x85 (R124). -/
def execAdd_A_L (s : State) : Host.Outcome State Fault Refusal := aluAdd (.reg .L) s

/-- `ADD A,A`, 0x87 (R124). -/
def execAdd_A_A (s : State) : Host.Outcome State Fault Refusal := aluAdd (.reg .A) s

/-- `ADD A,(HL)`, 0x86 (R125). -/
def execAdd_A_mHL (s : State) : Host.Outcome State Fault Refusal := aluAdd .memHL s

/-- `ADC A,B`, 0x88 (R126). -/
def execAdc_A_B (s : State) : Host.Outcome State Fault Refusal := aluAdc (.reg .B) s

/-- `ADC A,C`, 0x89 (R126). -/
def execAdc_A_C (s : State) : Host.Outcome State Fault Refusal := aluAdc (.reg .C) s

/-- `ADC A,D`, 0x8A (R126). -/
def execAdc_A_D (s : State) : Host.Outcome State Fault Refusal := aluAdc (.reg .D) s

/-- `ADC A,E`, 0x8B (R126). -/
def execAdc_A_E (s : State) : Host.Outcome State Fault Refusal := aluAdc (.reg .E) s

/-- `ADC A,H`, 0x8C (R126). -/
def execAdc_A_H (s : State) : Host.Outcome State Fault Refusal := aluAdc (.reg .H) s

/-- `ADC A,L`, 0x8D (R126). -/
def execAdc_A_L (s : State) : Host.Outcome State Fault Refusal := aluAdc (.reg .L) s

/-- `ADC A,A`, 0x8F (R126). -/
def execAdc_A_A (s : State) : Host.Outcome State Fault Refusal := aluAdc (.reg .A) s

/-- `ADC A,(HL)`, 0x8E (R127). -/
def execAdc_A_mHL (s : State) : Host.Outcome State Fault Refusal := aluAdc .memHL s

/-- `SUB B`, 0x90 (R128). -/
def execSub_B (s : State) : Host.Outcome State Fault Refusal := aluSub (.reg .B) s

/-- `SUB C`, 0x91 (R128). -/
def execSub_C (s : State) : Host.Outcome State Fault Refusal := aluSub (.reg .C) s

/-- `SUB D`, 0x92 (R128). -/
def execSub_D (s : State) : Host.Outcome State Fault Refusal := aluSub (.reg .D) s

/-- `SUB E`, 0x93 (R128). -/
def execSub_E (s : State) : Host.Outcome State Fault Refusal := aluSub (.reg .E) s

/-- `SUB H`, 0x94 (R128). -/
def execSub_H (s : State) : Host.Outcome State Fault Refusal := aluSub (.reg .H) s

/-- `SUB L`, 0x95 (R128). -/
def execSub_L (s : State) : Host.Outcome State Fault Refusal := aluSub (.reg .L) s

/-- `SUB A`, 0x97 (R128). -/
def execSub_A (s : State) : Host.Outcome State Fault Refusal := aluSub (.reg .A) s

/-- `SUB (HL)`, 0x96 (R129). -/
def execSub_mHL (s : State) : Host.Outcome State Fault Refusal := aluSub .memHL s

/-- `SBC A,B`, 0x98 (R130). -/
def execSbc_A_B (s : State) : Host.Outcome State Fault Refusal := aluSbc (.reg .B) s

/-- `SBC A,C`, 0x99 (R130). -/
def execSbc_A_C (s : State) : Host.Outcome State Fault Refusal := aluSbc (.reg .C) s

/-- `SBC A,D`, 0x9A (R130). -/
def execSbc_A_D (s : State) : Host.Outcome State Fault Refusal := aluSbc (.reg .D) s

/-- `SBC A,E`, 0x9B (R130). -/
def execSbc_A_E (s : State) : Host.Outcome State Fault Refusal := aluSbc (.reg .E) s

/-- `SBC A,H`, 0x9C (R130). -/
def execSbc_A_H (s : State) : Host.Outcome State Fault Refusal := aluSbc (.reg .H) s

/-- `SBC A,L`, 0x9D (R130). -/
def execSbc_A_L (s : State) : Host.Outcome State Fault Refusal := aluSbc (.reg .L) s

/-- `SBC A,A`, 0x9F (R130). -/
def execSbc_A_A (s : State) : Host.Outcome State Fault Refusal := aluSbc (.reg .A) s

/-- `SBC A,(HL)`, 0x9E (R131). -/
def execSbc_A_mHL (s : State) : Host.Outcome State Fault Refusal := aluSbc .memHL s

/-- `AND B`, 0xA0 (R132). -/
def execAnd_B (s : State) : Host.Outcome State Fault Refusal := aluAnd (.reg .B) s

/-- `AND C`, 0xA1 (R132). -/
def execAnd_C (s : State) : Host.Outcome State Fault Refusal := aluAnd (.reg .C) s

/-- `AND D`, 0xA2 (R132). -/
def execAnd_D (s : State) : Host.Outcome State Fault Refusal := aluAnd (.reg .D) s

/-- `AND E`, 0xA3 (R132). -/
def execAnd_E (s : State) : Host.Outcome State Fault Refusal := aluAnd (.reg .E) s

/-- `AND H`, 0xA4 (R132). -/
def execAnd_H (s : State) : Host.Outcome State Fault Refusal := aluAnd (.reg .H) s

/-- `AND L`, 0xA5 (R132). -/
def execAnd_L (s : State) : Host.Outcome State Fault Refusal := aluAnd (.reg .L) s

/-- `AND A`, 0xA7 (R132). -/
def execAnd_A (s : State) : Host.Outcome State Fault Refusal := aluAnd (.reg .A) s

/-- `AND (HL)`, 0xA6 (R133). -/
def execAnd_mHL (s : State) : Host.Outcome State Fault Refusal := aluAnd .memHL s

/-- `XOR B`, 0xA8 (R134). -/
def execXor_B (s : State) : Host.Outcome State Fault Refusal := aluXor (.reg .B) s

/-- `XOR C`, 0xA9 (R134). -/
def execXor_C (s : State) : Host.Outcome State Fault Refusal := aluXor (.reg .C) s

/-- `XOR D`, 0xAA (R134). -/
def execXor_D (s : State) : Host.Outcome State Fault Refusal := aluXor (.reg .D) s

/-- `XOR E`, 0xAB (R134). -/
def execXor_E (s : State) : Host.Outcome State Fault Refusal := aluXor (.reg .E) s

/-- `XOR H`, 0xAC (R134). -/
def execXor_H (s : State) : Host.Outcome State Fault Refusal := aluXor (.reg .H) s

/-- `XOR L`, 0xAD (R134). -/
def execXor_L (s : State) : Host.Outcome State Fault Refusal := aluXor (.reg .L) s

/-- `XOR A`, 0xAF (R134). -/
def execXor_A (s : State) : Host.Outcome State Fault Refusal := aluXor (.reg .A) s

/-- `XOR (HL)`, 0xAE (R135). -/
def execXor_mHL (s : State) : Host.Outcome State Fault Refusal := aluXor .memHL s

/-- `OR B`, 0xB0 (R136). -/
def execOr_B (s : State) : Host.Outcome State Fault Refusal := aluOr (.reg .B) s

/-- `OR C`, 0xB1 (R136). -/
def execOr_C (s : State) : Host.Outcome State Fault Refusal := aluOr (.reg .C) s

/-- `OR D`, 0xB2 (R136). -/
def execOr_D (s : State) : Host.Outcome State Fault Refusal := aluOr (.reg .D) s

/-- `OR E`, 0xB3 (R136). -/
def execOr_E (s : State) : Host.Outcome State Fault Refusal := aluOr (.reg .E) s

/-- `OR H`, 0xB4 (R136). -/
def execOr_H (s : State) : Host.Outcome State Fault Refusal := aluOr (.reg .H) s

/-- `OR L`, 0xB5 (R136). -/
def execOr_L (s : State) : Host.Outcome State Fault Refusal := aluOr (.reg .L) s

/-- `OR A`, 0xB7 (R136). -/
def execOr_A (s : State) : Host.Outcome State Fault Refusal := aluOr (.reg .A) s

/-- `OR (HL)`, 0xB6 (R137). -/
def execOr_mHL (s : State) : Host.Outcome State Fault Refusal := aluOr .memHL s

/-- `CP B`, 0xB8 (R138). -/
def execCp_B (s : State) : Host.Outcome State Fault Refusal := aluCp (.reg .B) s

/-- `CP C`, 0xB9 (R138). -/
def execCp_C (s : State) : Host.Outcome State Fault Refusal := aluCp (.reg .C) s

/-- `CP D`, 0xBA (R138). -/
def execCp_D (s : State) : Host.Outcome State Fault Refusal := aluCp (.reg .D) s

/-- `CP E`, 0xBB (R138). -/
def execCp_E (s : State) : Host.Outcome State Fault Refusal := aluCp (.reg .E) s

/-- `CP H`, 0xBC (R138). -/
def execCp_H (s : State) : Host.Outcome State Fault Refusal := aluCp (.reg .H) s

/-- `CP L`, 0xBD (R138). -/
def execCp_L (s : State) : Host.Outcome State Fault Refusal := aluCp (.reg .L) s

/-- `CP A`, 0xBF (R138). -/
def execCp_A (s : State) : Host.Outcome State Fault Refusal := aluCp (.reg .A) s

/-- `CP (HL)`, 0xBE (R139). -/
def execCp_mHL (s : State) : Host.Outcome State Fault Refusal := aluCp .memHL s

/-- `INC B`, 0x04 (R140). -/
def execInc_B (s : State) : Host.Outcome State Fault Refusal := incReg .B s

/-- `INC C`, 0x0C (R140). -/
def execInc_C (s : State) : Host.Outcome State Fault Refusal := incReg .C s

/-- `INC D`, 0x14 (R140). -/
def execInc_D (s : State) : Host.Outcome State Fault Refusal := incReg .D s

/-- `INC E`, 0x1C (R140). -/
def execInc_E (s : State) : Host.Outcome State Fault Refusal := incReg .E s

/-- `INC H`, 0x24 (R140). -/
def execInc_H (s : State) : Host.Outcome State Fault Refusal := incReg .H s

/-- `INC L`, 0x2C (R140). -/
def execInc_L (s : State) : Host.Outcome State Fault Refusal := incReg .L s

/-- `INC A`, 0x3C (R140). -/
def execInc_A (s : State) : Host.Outcome State Fault Refusal := incReg .A s

/-- `INC (HL)`, 0x34 (R141). -/
def execInc_mHL (s : State) : Host.Outcome State Fault Refusal := incMemHL s

end Sys2Proof.Machine
end

