-- ==== Sys2Proof/Machine/Control.lean ====
section
/-! DEFINITION. The control instructions NOP and HALT (spec/40_step_clock_control.md R87, R88). An operation starts with `PC`
already past the opcode byte (R81) and ends with its one `Clock` (R84). -/

namespace Sys2Proof.Machine

/-! ### Shared operations -/

/-- `NOP`: nothing but the clock, 1 / 4 (R87). -/
def runNop (s : State) : Host.Outcome State Fault Refusal := .next (s.clock 1 4)

/-- `HALT`: `halted <- true`, 1 / 4 (R88). -/
def runHalt (s : State) : Host.Outcome State Fault Refusal := .next ((s.setHalted true).clock 1 4)

/-! ### One meaning for each row of the opcode table -/

/-- `NOP`, 0x00 (R87). -/
def execNop (s : State) : Host.Outcome State Fault Refusal := runNop s

/-- `HALT`, 0x76 (R88). -/
def execHalt (s : State) : Host.Outcome State Fault Refusal := runHalt s

end Sys2Proof.Machine
end

