-- ==== Sys2Proof/Machine/Load.lean ====
section
/-! DEFINITION. The load family (spec/41_load.md R91 to R107): pure data movement, no flag read or written (R90). -/

namespace Sys2Proof.Machine

/-! ### Shared operations -/

/-- `LD r,r'`: `r8[d] <- r8[r]`, 1 / 4 (R91). -/
def loadRegReg (d r : Reg) (s : State) : Host.Outcome State Fault Refusal := .next ((s.setReg d (s.reg r)).clock 1 4)

/-- `LD r,n`: `r8[r] <- Imm8()`, 2 / 8 (R92). -/
def loadRegImm (r : Reg) (s : State) : Host.Outcome State Fault Refusal :=
  andThen (imm8 s) fun n => .next ((n.2.setReg r n.1).clock 2 8)

/-- `LD rr,nn`: the first byte to the low half, the second to the high half, 3 / 12 (R93; D15, log 19). -/
def loadPairImm (p : Pair) (s : State) : Host.Outcome State Fault Refusal :=
  andThen (imm8 s) fun b1 =>
    andThen (imm8 b1.2) fun b2 =>
      .next (((b2.2.setReg p.lo b1.1).setReg p.hi b2.1).clock 3 12)

/-- `LD SP,nn`: `SP <- Imm16()`, 3 / 12 (R94). -/
def loadSpImm (s : State) : Host.Outcome State Fault Refusal :=
  andThen (imm16 s) fun nn => .next ((nn.2.setSp nn.1).clock 3 12)

/-- Load `A` from an address, at a cost (R95, R102, R104, R106). -/
def loadAFrom (a : Word) (mc tc : Nat) (s : State) : Host.Outcome State Fault Refusal :=
  andThen (readByte a s) fun v => .next ((v.2.setReg .A v.1).clock mc tc)

/-- Store a byte to an address, at a cost (R96 to R100, R103, R105). -/
def storeTo (a : Word) (v : Byte) (mc tc : Nat) (s : State) : Host.Outcome State Fault Refusal :=
  andThen (writeByte a v s) fun s1 => .next (s1.clock mc tc)

/-- `LD A,(HL)`, 1 / 8 (R95). -/
def loadAFromHL (s : State) : Host.Outcome State Fault Refusal := loadAFrom (s.pair .HL) 1 8 s

/-- `LD (HL),r`: address and data are both taken before the instruction, 1 / 8 (R96). -/
def storeHLReg (r : Reg) (s : State) : Host.Outcome State Fault Refusal := storeTo (s.pair .HL) (s.reg r) 1 8 s

/-- `LD (BC),A` and `LD (DE),A`, 1 / 8 (R97, R98). -/
def storePairA (p : Pair) (s : State) : Host.Outcome State Fault Refusal := storeTo (s.pair p) (s.reg .A) 1 8 s

/-- `LD (HL),n`: the immediate is read before the write, 2 / 12 (R99). -/
def storeHLImm (s : State) : Host.Outcome State Fault Refusal :=
  andThen (imm8 s) fun n => storeTo (n.2.pair .HL) n.1 2 12 n.2

/-- `LD (nn),A`, 3 / 16 (R100). -/
def storeAbsA (s : State) : Host.Outcome State Fault Refusal :=
  andThen (imm16 s) fun nn => storeTo nn.1 (nn.2.reg .A) 3 16 nn.2

/-- `LD (nn),SP`: a word write, low byte at `nn`, 3 / 20 (R101). -/
def storeAbsSp (s : State) : Host.Outcome State Fault Refusal :=
  andThen (imm16 s) fun nn =>
    andThen (writeWord nn.1 nn.2.sp nn.2) fun s1 => .next (s1.clock 3 20)

/-- `LD A,(nn)`, 3 / 16 (R102). -/
def loadAAbs (s : State) : Host.Outcome State Fault Refusal :=
  andThen (imm16 s) fun nn => loadAFrom nn.1 3 16 nn.2

/-- `LDH (n),A`: the offset zero-extended, 2 / 12 (R103). -/
def storeHighImm (s : State) : Host.Outcome State Fault Refusal :=
  andThen (imm8 s) fun n => storeTo (highPage n.1) (n.2.reg .A) 2 12 n.2

/-- `LDH A,(n)`, 2 / 12 (R104). -/
def loadHighImm (s : State) : Host.Outcome State Fault Refusal :=
  andThen (imm8 s) fun n => loadAFrom (highPage n.1) 2 12 n.2

/-- `LD (C),A`, 2 / 8 (R105). -/
def storeHighC (s : State) : Host.Outcome State Fault Refusal := storeTo (highPage (s.reg .C)) (s.reg .A) 2 8 s

/-- `LD A,(C)`, 2 / 8 (R106). -/
def loadHighC (s : State) : Host.Outcome State Fault Refusal := loadAFrom (highPage (s.reg .C)) 2 8 s

/-- `LD SP,HL`, 1 / 8 (R107). -/
def loadSpHL (s : State) : Host.Outcome State Fault Refusal := .next ((s.setSp (s.pair .HL)).clock 1 8)

/-! ### One meaning for each row of the opcode table -/

/-- `LD B,B`, 0x40 (R91). -/
def execLd_B_B (s : State) : Host.Outcome State Fault Refusal := loadRegReg .B .B s

/-- `LD B,C`, 0x41 (R91). -/
def execLd_B_C (s : State) : Host.Outcome State Fault Refusal := loadRegReg .B .C s

/-- `LD B,D`, 0x42 (R91). -/
def execLd_B_D (s : State) : Host.Outcome State Fault Refusal := loadRegReg .B .D s

/-- `LD B,E`, 0x43 (R91). -/
def execLd_B_E (s : State) : Host.Outcome State Fault Refusal := loadRegReg .B .E s

/-- `LD B,H`, 0x44 (R91). -/
def execLd_B_H (s : State) : Host.Outcome State Fault Refusal := loadRegReg .B .H s

/-- `LD B,L`, 0x45 (R91). -/
def execLd_B_L (s : State) : Host.Outcome State Fault Refusal := loadRegReg .B .L s

/-- `LD B,A`, 0x47 (R91). -/
def execLd_B_A (s : State) : Host.Outcome State Fault Refusal := loadRegReg .B .A s

/-- `LD C,B`, 0x48 (R91). -/
def execLd_C_B (s : State) : Host.Outcome State Fault Refusal := loadRegReg .C .B s

/-- `LD C,C`, 0x49 (R91). -/
def execLd_C_C (s : State) : Host.Outcome State Fault Refusal := loadRegReg .C .C s

/-- `LD C,D`, 0x4A (R91). -/
def execLd_C_D (s : State) : Host.Outcome State Fault Refusal := loadRegReg .C .D s

/-- `LD C,E`, 0x4B (R91). -/
def execLd_C_E (s : State) : Host.Outcome State Fault Refusal := loadRegReg .C .E s

/-- `LD C,H`, 0x4C (R91). -/
def execLd_C_H (s : State) : Host.Outcome State Fault Refusal := loadRegReg .C .H s

/-- `LD C,L`, 0x4D (R91). -/
def execLd_C_L (s : State) : Host.Outcome State Fault Refusal := loadRegReg .C .L s

/-- `LD C,A`, 0x4F (R91). -/
def execLd_C_A (s : State) : Host.Outcome State Fault Refusal := loadRegReg .C .A s

/-- `LD D,B`, 0x50 (R91). -/
def execLd_D_B (s : State) : Host.Outcome State Fault Refusal := loadRegReg .D .B s

/-- `LD D,C`, 0x51 (R91). -/
def execLd_D_C (s : State) : Host.Outcome State Fault Refusal := loadRegReg .D .C s

/-- `LD D,D`, 0x52 (R91). -/
def execLd_D_D (s : State) : Host.Outcome State Fault Refusal := loadRegReg .D .D s

/-- `LD D,E`, 0x53 (R91). -/
def execLd_D_E (s : State) : Host.Outcome State Fault Refusal := loadRegReg .D .E s

/-- `LD D,H`, 0x54 (R91). -/
def execLd_D_H (s : State) : Host.Outcome State Fault Refusal := loadRegReg .D .H s

/-- `LD D,L`, 0x55 (R91). -/
def execLd_D_L (s : State) : Host.Outcome State Fault Refusal := loadRegReg .D .L s

/-- `LD D,A`, 0x57 (R91). -/
def execLd_D_A (s : State) : Host.Outcome State Fault Refusal := loadRegReg .D .A s

/-- `LD E,B`, 0x58 (R91). -/
def execLd_E_B (s : State) : Host.Outcome State Fault Refusal := loadRegReg .E .B s

/-- `LD E,C`, 0x59 (R91). -/
def execLd_E_C (s : State) : Host.Outcome State Fault Refusal := loadRegReg .E .C s

/-- `LD E,D`, 0x5A (R91). -/
def execLd_E_D (s : State) : Host.Outcome State Fault Refusal := loadRegReg .E .D s

/-- `LD E,E`, 0x5B (R91). -/
def execLd_E_E (s : State) : Host.Outcome State Fault Refusal := loadRegReg .E .E s

/-- `LD E,H`, 0x5C (R91). -/
def execLd_E_H (s : State) : Host.Outcome State Fault Refusal := loadRegReg .E .H s

/-- `LD E,L`, 0x5D (R91). -/
def execLd_E_L (s : State) : Host.Outcome State Fault Refusal := loadRegReg .E .L s

/-- `LD E,A`, 0x5F (R91). -/
def execLd_E_A (s : State) : Host.Outcome State Fault Refusal := loadRegReg .E .A s

/-- `LD H,B`, 0x60 (R91). -/
def execLd_H_B (s : State) : Host.Outcome State Fault Refusal := loadRegReg .H .B s

/-- `LD H,C`, 0x61 (R91). -/
def execLd_H_C (s : State) : Host.Outcome State Fault Refusal := loadRegReg .H .C s

/-- `LD H,D`, 0x62 (R91). -/
def execLd_H_D (s : State) : Host.Outcome State Fault Refusal := loadRegReg .H .D s

/-- `LD H,E`, 0x63 (R91). -/
def execLd_H_E (s : State) : Host.Outcome State Fault Refusal := loadRegReg .H .E s

/-- `LD H,H`, 0x64 (R91). -/
def execLd_H_H (s : State) : Host.Outcome State Fault Refusal := loadRegReg .H .H s

/-- `LD H,L`, 0x65 (R91). -/
def execLd_H_L (s : State) : Host.Outcome State Fault Refusal := loadRegReg .H .L s

/-- `LD H,A`, 0x67 (R91). -/
def execLd_H_A (s : State) : Host.Outcome State Fault Refusal := loadRegReg .H .A s

/-- `LD L,B`, 0x68 (R91). -/
def execLd_L_B (s : State) : Host.Outcome State Fault Refusal := loadRegReg .L .B s

/-- `LD L,C`, 0x69 (R91). -/
def execLd_L_C (s : State) : Host.Outcome State Fault Refusal := loadRegReg .L .C s

/-- `LD L,D`, 0x6A (R91). -/
def execLd_L_D (s : State) : Host.Outcome State Fault Refusal := loadRegReg .L .D s

/-- `LD L,E`, 0x6B (R91). -/
def execLd_L_E (s : State) : Host.Outcome State Fault Refusal := loadRegReg .L .E s

/-- `LD L,H`, 0x6C (R91). -/
def execLd_L_H (s : State) : Host.Outcome State Fault Refusal := loadRegReg .L .H s

/-- `LD L,L`, 0x6D (R91). -/
def execLd_L_L (s : State) : Host.Outcome State Fault Refusal := loadRegReg .L .L s

/-- `LD L,A`, 0x6F (R91). -/
def execLd_L_A (s : State) : Host.Outcome State Fault Refusal := loadRegReg .L .A s

/-- `LD A,B`, 0x78 (R91). -/
def execLd_A_B (s : State) : Host.Outcome State Fault Refusal := loadRegReg .A .B s

/-- `LD A,C`, 0x79 (R91). -/
def execLd_A_C (s : State) : Host.Outcome State Fault Refusal := loadRegReg .A .C s

/-- `LD A,D`, 0x7A (R91). -/
def execLd_A_D (s : State) : Host.Outcome State Fault Refusal := loadRegReg .A .D s

/-- `LD A,E`, 0x7B (R91). -/
def execLd_A_E (s : State) : Host.Outcome State Fault Refusal := loadRegReg .A .E s

/-- `LD A,H`, 0x7C (R91). -/
def execLd_A_H (s : State) : Host.Outcome State Fault Refusal := loadRegReg .A .H s

/-- `LD A,L`, 0x7D (R91). -/
def execLd_A_L (s : State) : Host.Outcome State Fault Refusal := loadRegReg .A .L s

/-- `LD A,A`, 0x7F (R91). -/
def execLd_A_A (s : State) : Host.Outcome State Fault Refusal := loadRegReg .A .A s

/-- `LD B,n`, 0x06 (R92). -/
def execLd_B_n (s : State) : Host.Outcome State Fault Refusal := loadRegImm .B s

/-- `LD C,n`, 0x0E (R92). -/
def execLd_C_n (s : State) : Host.Outcome State Fault Refusal := loadRegImm .C s

/-- `LD D,n`, 0x16 (R92). -/
def execLd_D_n (s : State) : Host.Outcome State Fault Refusal := loadRegImm .D s

/-- `LD E,n`, 0x1E (R92). -/
def execLd_E_n (s : State) : Host.Outcome State Fault Refusal := loadRegImm .E s

/-- `LD H,n`, 0x26 (R92). -/
def execLd_H_n (s : State) : Host.Outcome State Fault Refusal := loadRegImm .H s

/-- `LD L,n`, 0x2E (R92). -/
def execLd_L_n (s : State) : Host.Outcome State Fault Refusal := loadRegImm .L s

/-- `LD A,n`, 0x3E (R92). -/
def execLd_A_n (s : State) : Host.Outcome State Fault Refusal := loadRegImm .A s

/-- `LD BC,nn`, 0x01 (R93). -/
def execLd_BC_nn (s : State) : Host.Outcome State Fault Refusal := loadPairImm .BC s

/-- `LD DE,nn`, 0x11 (R93). -/
def execLd_DE_nn (s : State) : Host.Outcome State Fault Refusal := loadPairImm .DE s

/-- `LD HL,nn`, 0x21 (R93). -/
def execLd_HL_nn (s : State) : Host.Outcome State Fault Refusal := loadPairImm .HL s

/-- `LD SP,nn`, 0x31 (R94). -/
def execLd_SP_nn (s : State) : Host.Outcome State Fault Refusal := loadSpImm s

/-- `LD A,(HL)`, 0x7E (R95). -/
def execLd_A_mHL (s : State) : Host.Outcome State Fault Refusal := loadAFromHL s

/-- `LD (HL),B`, 0x70 (R96). -/
def execLd_mHL_B (s : State) : Host.Outcome State Fault Refusal := storeHLReg .B s

/-- `LD (HL),C`, 0x71 (R96). -/
def execLd_mHL_C (s : State) : Host.Outcome State Fault Refusal := storeHLReg .C s

/-- `LD (HL),D`, 0x72 (R96). -/
def execLd_mHL_D (s : State) : Host.Outcome State Fault Refusal := storeHLReg .D s

/-- `LD (HL),E`, 0x73 (R96). -/
def execLd_mHL_E (s : State) : Host.Outcome State Fault Refusal := storeHLReg .E s

/-- `LD (HL),H`, 0x74 (R96). -/
def execLd_mHL_H (s : State) : Host.Outcome State Fault Refusal := storeHLReg .H s

/-- `LD (HL),L`, 0x75 (R96). -/
def execLd_mHL_L (s : State) : Host.Outcome State Fault Refusal := storeHLReg .L s

/-- `LD (HL),A`, 0x77 (R96). -/
def execLd_mHL_A (s : State) : Host.Outcome State Fault Refusal := storeHLReg .A s

/-- `LD (BC),A`, 0x02 (R97). -/
def execLd_mBC_A (s : State) : Host.Outcome State Fault Refusal := storePairA .BC s

/-- `LD (DE),A`, 0x12 (R98). -/
def execLd_mDE_A (s : State) : Host.Outcome State Fault Refusal := storePairA .DE s

/-- `LD (HL),n`, 0x36 (R99). -/
def execLd_mHL_n (s : State) : Host.Outcome State Fault Refusal := storeHLImm s

/-- `LD (nn),A`, 0xEA (R100). -/
def execLd_mnn_A (s : State) : Host.Outcome State Fault Refusal := storeAbsA s

/-- `LD (nn),SP`, 0x08 (R101). -/
def execLd_mnn_SP (s : State) : Host.Outcome State Fault Refusal := storeAbsSp s

/-- `LD A,(nn)`, 0xFA (R102). -/
def execLd_A_mnn (s : State) : Host.Outcome State Fault Refusal := loadAAbs s

/-- `LDH (n),A`, 0xE0 (R103). -/
def execLdh_mn_A (s : State) : Host.Outcome State Fault Refusal := storeHighImm s

/-- `LDH A,(n)`, 0xF0 (R104). -/
def execLdh_A_mn (s : State) : Host.Outcome State Fault Refusal := loadHighImm s

/-- `LD (C),A`, 0xE2 (R105). -/
def execLd_mC_A (s : State) : Host.Outcome State Fault Refusal := storeHighC s

/-- `LD A,(C)`, 0xF2 (R106). -/
def execLd_A_mC (s : State) : Host.Outcome State Fault Refusal := loadHighC s

/-- `LD SP,HL`, 0xF9 (R107). -/
def execLd_SP_HL (s : State) : Host.Outcome State Fault Refusal := loadSpHL s

end Sys2Proof.Machine
end

