-- ==== Sys2Proof/Machine/Stack.lean ====
section
/-! DEFINITION. The stack family (spec/45_stack.md R166 to R169). The first register of a pair is the high half (R72; D15,
log 19). The cost of POP is the tested 12 (C2; log 23). -/

namespace Sys2Proof.Machine

/-! ### Shared operations -/

/-- `PUSH rr`, 1 / 16 (R166). -/
def pushPair (p : Pair) (s : State) : Host.Outcome State Fault Refusal :=
  andThen (pushBytes (s.reg p.hi) (s.reg p.lo) s) fun s1 => .next (s1.clock 1 16)

/-- `PUSH AF`: the byte written for `F` has a zero low nibble, 1 / 16 (R167). -/
def pushAF (s : State) : Host.Outcome State Fault Refusal :=
  andThen (pushBytes (s.reg .A) s.readF s) fun s1 => .next (s1.clock 1 16)

/-- `POP rr`, 1 / 12 (R168). -/
def popPair (p : Pair) (s : State) : Host.Outcome State Fault Refusal :=
  andThen (popBytes s) fun v => .next (((v.2.setReg p.lo v.1.2).setReg p.hi v.1.1).clock 1 12)

/-- `POP AF`: `F` takes the popped byte with its low nibble dropped, 1 / 12 (R169; D12, log 4). -/
def popAF (s : State) : Host.Outcome State Fault Refusal :=
  andThen (popBytes s) fun v => .next (((v.2.writeF v.1.2).setReg .A v.1.1).clock 1 12)

/-! ### One meaning for each row of the opcode table -/

/-- `PUSH BC`, 0xC5 (R166). -/
def execPush_BC (s : State) : Host.Outcome State Fault Refusal := pushPair .BC s

/-- `PUSH DE`, 0xD5 (R166). -/
def execPush_DE (s : State) : Host.Outcome State Fault Refusal := pushPair .DE s

/-- `PUSH HL`, 0xE5 (R166). -/
def execPush_HL (s : State) : Host.Outcome State Fault Refusal := pushPair .HL s

/-- `PUSH AF`, 0xF5 (R167). -/
def execPush_AF (s : State) : Host.Outcome State Fault Refusal := pushAF s

/-- `POP BC`, 0xC1 (R168). -/
def execPop_BC (s : State) : Host.Outcome State Fault Refusal := popPair .BC s

/-- `POP DE`, 0xD1 (R168). -/
def execPop_DE (s : State) : Host.Outcome State Fault Refusal := popPair .DE s

/-- `POP HL`, 0xE1 (R168). -/
def execPop_HL (s : State) : Host.Outcome State Fault Refusal := popPair .HL s

/-- `POP AF`, 0xF1 (R169). -/
def execPop_AF (s : State) : Host.Outcome State Fault Refusal := popAF s

end Sys2Proof.Machine
end

