-- ==== Sys2Proof/Machine/Dispatch.lean ====
section
/-! DEFINITION. `Exec` (spec/40_step_clock_control.md R82): one arm per instruction, each a direct call of its meaning. Not
gated by `halted` or `stopped` (R85). -/

namespace Sys2Proof.Machine

def exec (i : Instr) (s : State) : Host.Outcome State Fault Refusal :=
  match i with
  | .nop => Sys2Proof.Machine.execNop s
  | .halt => Sys2Proof.Machine.execHalt s
  | .ld_B_B => Sys2Proof.Machine.execLd_B_B s
  | .ld_B_C => Sys2Proof.Machine.execLd_B_C s
  | .ld_B_D => Sys2Proof.Machine.execLd_B_D s
  | .ld_B_E => Sys2Proof.Machine.execLd_B_E s
  | .ld_B_H => Sys2Proof.Machine.execLd_B_H s
  | .ld_B_L => Sys2Proof.Machine.execLd_B_L s
  | .ld_B_A => Sys2Proof.Machine.execLd_B_A s
  | .ld_C_B => Sys2Proof.Machine.execLd_C_B s
  | .ld_C_C => Sys2Proof.Machine.execLd_C_C s
  | .ld_C_D => Sys2Proof.Machine.execLd_C_D s
  | .ld_C_E => Sys2Proof.Machine.execLd_C_E s
  | .ld_C_H => Sys2Proof.Machine.execLd_C_H s
  | .ld_C_L => Sys2Proof.Machine.execLd_C_L s
  | .ld_C_A => Sys2Proof.Machine.execLd_C_A s
  | .ld_D_B => Sys2Proof.Machine.execLd_D_B s
  | .ld_D_C => Sys2Proof.Machine.execLd_D_C s
  | .ld_D_D => Sys2Proof.Machine.execLd_D_D s
  | .ld_D_E => Sys2Proof.Machine.execLd_D_E s
  | .ld_D_H => Sys2Proof.Machine.execLd_D_H s
  | .ld_D_L => Sys2Proof.Machine.execLd_D_L s
  | .ld_D_A => Sys2Proof.Machine.execLd_D_A s
  | .ld_E_B => Sys2Proof.Machine.execLd_E_B s
  | .ld_E_C => Sys2Proof.Machine.execLd_E_C s
  | .ld_E_D => Sys2Proof.Machine.execLd_E_D s
  | .ld_E_E => Sys2Proof.Machine.execLd_E_E s
  | .ld_E_H => Sys2Proof.Machine.execLd_E_H s
  | .ld_E_L => Sys2Proof.Machine.execLd_E_L s
  | .ld_E_A => Sys2Proof.Machine.execLd_E_A s
  | .ld_H_B => Sys2Proof.Machine.execLd_H_B s
  | .ld_H_C => Sys2Proof.Machine.execLd_H_C s
  | .ld_H_D => Sys2Proof.Machine.execLd_H_D s
  | .ld_H_E => Sys2Proof.Machine.execLd_H_E s
  | .ld_H_H => Sys2Proof.Machine.execLd_H_H s
  | .ld_H_L => Sys2Proof.Machine.execLd_H_L s
  | .ld_H_A => Sys2Proof.Machine.execLd_H_A s
  | .ld_L_B => Sys2Proof.Machine.execLd_L_B s
  | .ld_L_C => Sys2Proof.Machine.execLd_L_C s
  | .ld_L_D => Sys2Proof.Machine.execLd_L_D s
  | .ld_L_E => Sys2Proof.Machine.execLd_L_E s
  | .ld_L_H => Sys2Proof.Machine.execLd_L_H s
  | .ld_L_L => Sys2Proof.Machine.execLd_L_L s
  | .ld_L_A => Sys2Proof.Machine.execLd_L_A s
  | .ld_A_B => Sys2Proof.Machine.execLd_A_B s
  | .ld_A_C => Sys2Proof.Machine.execLd_A_C s
  | .ld_A_D => Sys2Proof.Machine.execLd_A_D s
  | .ld_A_E => Sys2Proof.Machine.execLd_A_E s
  | .ld_A_H => Sys2Proof.Machine.execLd_A_H s
  | .ld_A_L => Sys2Proof.Machine.execLd_A_L s
  | .ld_A_A => Sys2Proof.Machine.execLd_A_A s
  | .ld_B_n => Sys2Proof.Machine.execLd_B_n s
  | .ld_C_n => Sys2Proof.Machine.execLd_C_n s
  | .ld_D_n => Sys2Proof.Machine.execLd_D_n s
  | .ld_E_n => Sys2Proof.Machine.execLd_E_n s
  | .ld_H_n => Sys2Proof.Machine.execLd_H_n s
  | .ld_L_n => Sys2Proof.Machine.execLd_L_n s
  | .ld_A_n => Sys2Proof.Machine.execLd_A_n s
  | .ld_BC_nn => Sys2Proof.Machine.execLd_BC_nn s
  | .ld_DE_nn => Sys2Proof.Machine.execLd_DE_nn s
  | .ld_HL_nn => Sys2Proof.Machine.execLd_HL_nn s
  | .ld_SP_nn => Sys2Proof.Machine.execLd_SP_nn s
  | .ld_A_mHL => Sys2Proof.Machine.execLd_A_mHL s
  | .ld_mHL_B => Sys2Proof.Machine.execLd_mHL_B s
  | .ld_mHL_C => Sys2Proof.Machine.execLd_mHL_C s
  | .ld_mHL_D => Sys2Proof.Machine.execLd_mHL_D s
  | .ld_mHL_E => Sys2Proof.Machine.execLd_mHL_E s
  | .ld_mHL_H => Sys2Proof.Machine.execLd_mHL_H s
  | .ld_mHL_L => Sys2Proof.Machine.execLd_mHL_L s
  | .ld_mHL_A => Sys2Proof.Machine.execLd_mHL_A s
  | .ld_mBC_A => Sys2Proof.Machine.execLd_mBC_A s
  | .ld_mDE_A => Sys2Proof.Machine.execLd_mDE_A s
  | .ld_mHL_n => Sys2Proof.Machine.execLd_mHL_n s
  | .ld_mnn_A => Sys2Proof.Machine.execLd_mnn_A s
  | .ld_mnn_SP => Sys2Proof.Machine.execLd_mnn_SP s
  | .ld_A_mnn => Sys2Proof.Machine.execLd_A_mnn s
  | .ldh_mn_A => Sys2Proof.Machine.execLdh_mn_A s
  | .ldh_A_mn => Sys2Proof.Machine.execLdh_A_mn s
  | .ld_mC_A => Sys2Proof.Machine.execLd_mC_A s
  | .ld_A_mC => Sys2Proof.Machine.execLd_A_mC s
  | .ld_SP_HL => Sys2Proof.Machine.execLd_SP_HL s
  | .add_A_B => Sys2Proof.Machine.execAdd_A_B s
  | .add_A_C => Sys2Proof.Machine.execAdd_A_C s
  | .add_A_D => Sys2Proof.Machine.execAdd_A_D s
  | .add_A_E => Sys2Proof.Machine.execAdd_A_E s
  | .add_A_H => Sys2Proof.Machine.execAdd_A_H s
  | .add_A_L => Sys2Proof.Machine.execAdd_A_L s
  | .add_A_A => Sys2Proof.Machine.execAdd_A_A s
  | .add_A_mHL => Sys2Proof.Machine.execAdd_A_mHL s
  | .adc_A_B => Sys2Proof.Machine.execAdc_A_B s
  | .adc_A_C => Sys2Proof.Machine.execAdc_A_C s
  | .adc_A_D => Sys2Proof.Machine.execAdc_A_D s
  | .adc_A_E => Sys2Proof.Machine.execAdc_A_E s
  | .adc_A_H => Sys2Proof.Machine.execAdc_A_H s
  | .adc_A_L => Sys2Proof.Machine.execAdc_A_L s
  | .adc_A_A => Sys2Proof.Machine.execAdc_A_A s
  | .adc_A_mHL => Sys2Proof.Machine.execAdc_A_mHL s
  | .sub_B => Sys2Proof.Machine.execSub_B s
  | .sub_C => Sys2Proof.Machine.execSub_C s
  | .sub_D => Sys2Proof.Machine.execSub_D s
  | .sub_E => Sys2Proof.Machine.execSub_E s
  | .sub_H => Sys2Proof.Machine.execSub_H s
  | .sub_L => Sys2Proof.Machine.execSub_L s
  | .sub_A => Sys2Proof.Machine.execSub_A s
  | .sub_mHL => Sys2Proof.Machine.execSub_mHL s
  | .sbc_A_B => Sys2Proof.Machine.execSbc_A_B s
  | .sbc_A_C => Sys2Proof.Machine.execSbc_A_C s
  | .sbc_A_D => Sys2Proof.Machine.execSbc_A_D s
  | .sbc_A_E => Sys2Proof.Machine.execSbc_A_E s
  | .sbc_A_H => Sys2Proof.Machine.execSbc_A_H s
  | .sbc_A_L => Sys2Proof.Machine.execSbc_A_L s
  | .sbc_A_A => Sys2Proof.Machine.execSbc_A_A s
  | .sbc_A_mHL => Sys2Proof.Machine.execSbc_A_mHL s
  | .and_B => Sys2Proof.Machine.execAnd_B s
  | .and_C => Sys2Proof.Machine.execAnd_C s
  | .and_D => Sys2Proof.Machine.execAnd_D s
  | .and_E => Sys2Proof.Machine.execAnd_E s
  | .and_H => Sys2Proof.Machine.execAnd_H s
  | .and_L => Sys2Proof.Machine.execAnd_L s
  | .and_A => Sys2Proof.Machine.execAnd_A s
  | .and_mHL => Sys2Proof.Machine.execAnd_mHL s
  | .xor_B => Sys2Proof.Machine.execXor_B s
  | .xor_C => Sys2Proof.Machine.execXor_C s
  | .xor_D => Sys2Proof.Machine.execXor_D s
  | .xor_E => Sys2Proof.Machine.execXor_E s
  | .xor_H => Sys2Proof.Machine.execXor_H s
  | .xor_L => Sys2Proof.Machine.execXor_L s
  | .xor_A => Sys2Proof.Machine.execXor_A s
  | .xor_mHL => Sys2Proof.Machine.execXor_mHL s
  | .or_B => Sys2Proof.Machine.execOr_B s
  | .or_C => Sys2Proof.Machine.execOr_C s
  | .or_D => Sys2Proof.Machine.execOr_D s
  | .or_E => Sys2Proof.Machine.execOr_E s
  | .or_H => Sys2Proof.Machine.execOr_H s
  | .or_L => Sys2Proof.Machine.execOr_L s
  | .or_A => Sys2Proof.Machine.execOr_A s
  | .or_mHL => Sys2Proof.Machine.execOr_mHL s
  | .cp_B => Sys2Proof.Machine.execCp_B s
  | .cp_C => Sys2Proof.Machine.execCp_C s
  | .cp_D => Sys2Proof.Machine.execCp_D s
  | .cp_E => Sys2Proof.Machine.execCp_E s
  | .cp_H => Sys2Proof.Machine.execCp_H s
  | .cp_L => Sys2Proof.Machine.execCp_L s
  | .cp_A => Sys2Proof.Machine.execCp_A s
  | .cp_mHL => Sys2Proof.Machine.execCp_mHL s
  | .inc_B => Sys2Proof.Machine.execInc_B s
  | .inc_C => Sys2Proof.Machine.execInc_C s
  | .inc_D => Sys2Proof.Machine.execInc_D s
  | .inc_E => Sys2Proof.Machine.execInc_E s
  | .inc_H => Sys2Proof.Machine.execInc_H s
  | .inc_L => Sys2Proof.Machine.execInc_L s
  | .inc_A => Sys2Proof.Machine.execInc_A s
  | .inc_mHL => Sys2Proof.Machine.execInc_mHL s
  | .inc_BC => Sys2Proof.Machine.execInc_BC s
  | .inc_DE => Sys2Proof.Machine.execInc_DE s
  | .inc_HL => Sys2Proof.Machine.execInc_HL s
  | .inc_SP => Sys2Proof.Machine.execInc_SP s
  | .add_HL_BC => Sys2Proof.Machine.execAdd_HL_BC s
  | .add_HL_DE => Sys2Proof.Machine.execAdd_HL_DE s
  | .add_HL_HL => Sys2Proof.Machine.execAdd_HL_HL s
  | .ld_HL_SPe => Sys2Proof.Machine.execLd_HL_SPe s
  | .push_BC => Sys2Proof.Machine.execPush_BC s
  | .push_DE => Sys2Proof.Machine.execPush_DE s
  | .push_HL => Sys2Proof.Machine.execPush_HL s
  | .push_AF => Sys2Proof.Machine.execPush_AF s
  | .pop_BC => Sys2Proof.Machine.execPop_BC s
  | .pop_DE => Sys2Proof.Machine.execPop_DE s
  | .pop_HL => Sys2Proof.Machine.execPop_HL s
  | .pop_AF => Sys2Proof.Machine.execPop_AF s

end Sys2Proof.Machine
end

