-- ==== Sys2Proof/Machine/Events.lean ====
section
/-! DEFINITION. What reaches the core from outside, between two steps only: the external events `Reset`, `Start`, `Wake`
(spec/60_exceptions.md R177 to R182, spec/70_reset_and_hazards.md R195, R202) and the memory collaborator's own reset (R196). -/

namespace Sys2Proof.Machine

/-- The run states (R25). -/
inductive RunState where
  | running
  | halted
  | stopped
deriving DecidableEq, Repr

/-- The run state as a function of the two status bits (R25; D6). -/
def State.runState (s : State) : RunState :=
  if s.stopped then .stopped else if s.halted then .halted else .running

/-- `Reset`: every field of the core at its power-on value, whatever it was; memory is left as it was (R195, R196). -/
def applyReset (s : State) : State :=
  { State.reset with mem := s.mem, schedule := s.schedule, answers := s.answers, params := s.params }

/-- `Start`: `stopped <- false` and nothing else (R179; D6). Log 9. -/
def applyStart (s : State) : State := s.setStopped false

/-- What the environment that raises a `Wake` writes besides: nothing under the default `P_WAKE_HAVOC`, else what its event
says of `PC`, `SP` and the two bytes at the new `SP` (R181; D7). Log 11. -/
def applyHavoc (h : Option Havoc) (s : State) : State :=
  match h with
  | none => s
  | some w =>
    if s.params.wakeHavoc then
      ((((s.setPc w.pc).setSp w.sp).putByte w.sp w.lo).putByte (w.sp + 1) w.hi)
    else s

/-- `Wake`: `halted <- false` and nothing else, but for R181's environment (R178; D7). Log 11. -/
def applyWake (h : Option Havoc) (s : State) : State := applyHavoc h (s.setHalted false)

/-- The events raised at one boundary: `Reset` overrides the others, `Start` and `Wake` commute (R182). Log 10. -/
def applyEvents (ev : Events) (s : State) : State :=
  if ev.reset then applyReset s
  else
    let s1 := if ev.start then applyStart s else s
    if ev.wake then applyWake ev.havoc s1 else s1

/-- `P_MEM` is the default: RAM throughout, and no access ever fails (R51; D18). -/
def State.plainMemory (s : State) : Bool := s.params.memFails.isEmpty && s.params.openRanges.isEmpty

/-- The memory that holds the bytes listed (the earlier of two at one address) and 0x00 elsewhere. -/
def Memory.ofImage (image : List (Word × Byte)) : Memory :=
  match image with
  | [] => []
  | (a, v) :: rest => (Memory.ofImage rest).write a.toNat v

/-- The memory collaborator's own reset. With the default `P_MEM` every byte becomes 0x00 (R196; D18). DESIGN CHOICE, log 25:
with another `P_MEM` the spec does not say what it clears to (N15), and every byte becomes what the turn's `image` says, 0x00
where it says nothing. -/
def applyMemoryReset (image : List (Word × Byte)) (s : State) : State :=
  { s with mem := if s.plainMemory then [] else Memory.ofImage image }

end Sys2Proof.Machine
end

