-- ==== Sys2Proof/Machine/Transact.lean ====
section
/-! DEFINITION. One turn of each agent: the core's `Step` (spec/40_step_clock_control.md R80), the owner's events and the
memory's reset. -/

namespace Sys2Proof.Machine

/-- `Decode` under the dispatch table in force (R71; D2). Log 2. -/
def State.decodeByte (s : State) (op : Byte) : Option Instr := decodeWith s.params.table op

/-- Decode the fetched opcode byte and run its instruction, or refuse the step (R70, R80, R82). -/
def dispatch (op : Byte) (s : State) : Host.Outcome State Fault Refusal :=
  match s.decodeByte op with
  | some i => exec i s
  | none => .refused (.unassignedOpcode op)

/-- The core's turn. RUNNING: fetch, decode, run (R80). HALTED or STOPPED: no step is taken and nothing at all changes (R80,
R201). Log 8. -/
def coreTurn (s : State) : Host.Outcome State Fault Refusal :=
  match s.runState with
  | .running => andThen (fetchOpcode { s with bus := [] }) fun op => dispatch op.1 op.2
  | .halted => .next s
  | .stopped => .next s

/-- One turn (R7). Log 9. -/
def playTurn (turn : Turn) (s : State) : Host.Outcome State Fault Refusal :=
  match turn with
  | .core => coreTurn s
  | .owner ev => .next (applyEvents ev s)
  | .memoryReset image => .next (applyMemoryReset image s)

/-- The turn that comes next; with none listed, the core's. -/
def nextTurn (s : State) : Turn := s.schedule.headD .core

/-- The state with the next turn taken off the schedule. -/
def State.popTurn (s : State) : State := { s with schedule := s.schedule.tail }

/-- Store bytes at consecutive addresses from `a` on, modulo 65536, as the owner places a program (R197). -/
def placeBytes (a : Word) (bytes : List Byte) (s : State) : State :=
  match bytes with
  | [] => s
  | b :: rest => placeBytes (a + 1) rest (s.putByte a b)

end Sys2Proof.Machine
end

