-- ==== Sys2Proof/Machine/Step.lean ====
section
/-! DEFINITION. The step of the machine: the next turn of the schedule (spec/00_scope.md R7, spec/60_exceptions.md R182). -/

namespace Sys2Proof.Machine

/-- One step: the agent whose turn it is moves once. -/
def step (s : State) : Host.Outcome State Fault Refusal := playTurn (nextTurn s) s.popTurn

/-- `s` with an instruction placed where the next step fetches and the core ready to run it: RUNNING, its own turn, over the
default memory and dispatch table (R197: the owner places the program and raises `Start`). Log 21. -/
def State.withFetchWord (s : State) (nbits w : Nat) : State :=
  let s1 := placeBytes s.pc (tableBytes nbits w) s
  { s1 with
    halted := false, stopped := false, schedule := [],
    params := { s1.params with memFails := [], openRanges := [], table := none } }

end Sys2Proof.Machine
end

