-- ==== Sys2Proof/Safety.lean ====
section
/-! DEFINITION. The words claims are stated in: what an instruction may write, what it charges and which accesses it makes;
what every state of a run satisfies; how a run ends. -/

namespace Sys2Proof.Machine

/-- What an operation is allowed to write; everything not named here stays as it was. -/
structure Writes where
  regs : List Reg := []
  flags : List Flag := []
  sp : Bool := false
  halted : Bool := false
  mem : List Word := []
deriving DecidableEq, Repr

/-- From `s` to `t` nothing outside `w` changes: every other register, flag and byte of memory reads as before; `stopped`, the
turns to come and the parameters are never written by an instruction. `PC` (a clause of its own in each statement), the
counters (`Charged` or `CountersKept`) and the port (`Accessed`) are spoken of separately. -/
structure OnlyWrites (w : Writes) (s t : State) : Prop where
  regs : ∀ r, r ∉ w.regs → t.reg r = s.reg r
  flags : ∀ f, f ∉ w.flags → t.flag f = s.flag f
  sp : w.sp = false → t.sp = s.sp
  halted : w.halted = false → t.halted = s.halted
  stopped : t.stopped = s.stopped
  mem : ∀ a, a ∉ w.mem → t.byteAt a = s.byteAt a
  schedule : t.schedule = s.schedule
  params : t.params = s.params

/-- From `s` to `t` exactly one `Clock(mc, tc)` is accounted (R83, R84). -/
structure Charged (mc tc : Nat) (s t : State) : Prop where
  cyclesM : t.m = mc
  cyclesT : t.t = tc
  totalM : t.clockM = wrapClock s.params.clockBits (s.clockM + mc)
  totalT : t.clockT = wrapClock s.params.clockBits (s.clockT + tc)

/-- From `s` to `t` no cycle is accounted: the four counters are as before. -/
structure CountersKept (s t : State) : Prop where
  cyclesM : t.m = s.m
  cyclesT : t.t = s.t
  totalM : t.clockM = s.clockM
  totalT : t.clockT = s.clockT

/-! ### The two sides of the memory port -/

/-- The kind of an access. -/
def Access.kind : Access → AccessKind
  | .read _ _ => .read
  | .write _ _ => .write

/-- The address of an access. -/
def Access.addr : Access → Word
  | .read a _ => a
  | .write a _ => a

/-- What one access leaves on the collaborator's side. -/
def State.afterAccess (s : State) : Access → State
  | .read a _ => s.takeAnswer a
  | .write a v => s.storeByte a v

/-- What accesses in a row leave on the collaborator's side. -/
def State.afterAccesses (s : State) : List Access → State
  | [] => s
  | x :: rest => (s.afterAccess x).afterAccesses rest

/-- From `s` to `t` exactly these accesses are made, once each, in this order: they are on the bus, and an answer of the
environment is taken for each one in an open range and for no other reason (R47, R49; log 13, log 15). -/
def Accessed (xs : List Access) (s t : State) : Prop := t.bus = s.bus ++ xs ∧ t.answers = (s.afterAccesses xs).answers

/-- The memory collaborator answers a read at `a` (R51). -/
def State.canRead (s : State) (a : Word) : Prop := s.accessFails .read a = false

/-- The memory collaborator accepts a write at `a` (R51). -/
def State.canWrite (s : State) (a : Word) : Prop := s.accessFails .write a = false

/-- The cumulative counters keep inside their width, or, unbounded, keep the order every cost has: `T` is at least `4 M`. -/
def clocksInv (s : State) : Prop :=
  match s.params.clockBits with
  | none => 4 * s.clockM ≤ s.clockT
  | some k => s.clockM < 2 ^ k ∧ s.clockT < 2 ^ k

/-- The memory collaborator answers this access, a read with this byte. -/
def State.serves (s : State) : Access → Prop
  | .read a v => s.canRead a ∧ s.readValue a = v
  | .write a _ => s.canWrite a

/-- The memory collaborator answers these accesses in a row, whatever it is: each read with the byte named, which over plain
RAM is the content (R41, R49, R51). -/
def Served (s : State) : List Access → Prop
  | [] => True
  | x :: rest => s.serves x ∧ Served (s.afterAccess x) rest

/-- What every state of a run satisfies: memory is in canonical form; the per-instruction counters hold a cost (R21); the
cumulative counters are in range (R22); a STOPPED core is not HALTED (R178); an instruction makes at most five accesses,
its opcode fetch among them (R47). -/
structure Inv (s : State) : Prop where
  mem : Memory.wf s.mem = true
  m : s.m ≤ 3
  t : s.t ≤ 20
  ratio : 4 * s.m ≤ s.t
  clocks : clocksInv s
  status : s.stopped = true → s.halted = false
  bus : s.bus.length ≤ 5

/-- A run has ended normally: the core is HALTED (R89). -/
def State.finished (s : State) : Prop := s.halted = true ∧ s.stopped = false

/-- A run of `n` turns from `s` is safe if it meets no memory fault and no unassigned opcode (R89). -/
def SafeRun (n : Nat) (s : State) : Prop := ∃ t, Host.Core.run Sys2Proof.core n s = .next t

/-! ### Tables of the spec that claims compare the machine with -/

/-- The 87 unassigned opcode bytes, as R70 lists them. -/
def unassignedBytes : List Byte :=
    [0x05, 0x07, 0x0A, 0x0B, 0x0D, 0x0F, 0x10, 0x15, 0x17, 0x18, 0x1A, 0x1B, 0x1D, 0x1F, 0x20] ++
    [0x22, 0x25, 0x27, 0x28, 0x2A, 0x2B, 0x2D, 0x2F, 0x30, 0x32, 0x35, 0x37, 0x38, 0x39, 0x3A] ++
    [0x3B, 0x3D, 0x3F, 0x46, 0x4E, 0x56, 0x5E, 0x66, 0x6E, 0xC0, 0xC2, 0xC3, 0xC4, 0xC6, 0xC7] ++
    [0xC8, 0xC9, 0xCA, 0xCB, 0xCC, 0xCD, 0xCE, 0xCF, 0xD0, 0xD2, 0xD3, 0xD4, 0xD6, 0xD7, 0xD8] ++
    [0xD9, 0xDA, 0xDB, 0xDC, 0xDD, 0xDE, 0xDF, 0xE3, 0xE4, 0xE6, 0xE7, 0xE8, 0xE9, 0xEB, 0xEC] ++
    [0xED, 0xEE, 0xEF, 0xF3, 0xF4, 0xF6, 0xF7, 0xFB, 0xFC, 0xFD, 0xFE, 0xFF]

/-- The cost `M / T` of each form: the table of R199. -/
def formCost : Form → Nat × Nat
  | .nop | .halt | .ldRegReg _ _ => (1, 4)
  | .ldRegImm _ => (2, 8)
  | .ldPairImm _ | .ldSpImm => (3, 12)
  | .ldAFromHL | .ldHLFromReg _ | .ldBCFromA | .ldDEFromA => (1, 8)
  | .ldHLFromImm => (2, 12)
  | .ldAbsFromA => (3, 16)
  | .ldAbsFromSp => (3, 20)
  | .ldAFromAbs => (3, 16)
  | .ldhImmFromA | .ldhAFromImm => (2, 12)
  | .ldhCFromA | .ldhAFromC => (2, 8)
  | .ldSpFromHL => (1, 8)
  | .alu _ (.reg _) => (1, 4)
  | .alu _ .memHL => (1, 8)
  | .incReg _ => (1, 4)
  | .incHLMem => (1, 12)
  | .incPair _ | .incSp | .addHL _ => (1, 8)
  | .ldHLSpOffset => (2, 12)
  | .push _ | .pushAF => (1, 16)
  | .pop _ | .popAF => (1, 12)

/-- The flags each form writes: the table under R20. -/
def formFlags : Form → List Flag
  | .alu _ _ => [.Z, .N, .Hf, .Cf]
  | .incReg _ | .incHLMem => [.Z, .N, .Hf]
  | .addHL _ => [.N, .Hf, .Cf]
  | .ldHLSpOffset => [.Hf, .Cf]
  | .popAF => [.Z, .N, .Hf, .Cf]
  | _ => []

/-- The forms whose cost keeps the default ratio `T = 4 M`, as R83 lists them. -/
def hasDefaultRatio : Form → Bool
  | .nop | .halt | .ldRegReg _ _ | .ldRegImm _ | .ldPairImm _ | .ldSpImm => true
  | .ldhCFromA | .ldhAFromC | .alu _ (.reg _) | .incReg _ => true
  | _ => false

/-! ### The second operand of an 8-bit ALU operation -/

/-- Its value before the instruction (R121). -/
def State.operandValue (s : State) : Operand8 → Byte
  | .reg r => s.reg r
  | .memHL => s.readValue (s.pair .HL)

/-- The memory collaborator answers for it. -/
def State.canReadOperand (s : State) : Operand8 → Prop
  | .reg _ => True
  | .memHL => s.canRead (s.pair .HL)

/-- The accesses it makes: one read with `(HL)`, else none (R47, R49). -/
def State.operandAccesses (s : State) : Operand8 → List Access
  | .reg _ => []
  | .memHL => [.read (s.pair .HL) (s.readValue (s.pair .HL))]

/-! ### The accesses of each instruction -/

/-- The first immediate byte, as the collaborator answers it. -/
def State.imm0 (s : State) : Byte := s.readValue s.pc

/-- The second immediate byte, read after the first. -/
def State.imm1 (s : State) : Byte := (s.takeAnswer s.pc).readValue (s.pc + 1)

/-- The 16-bit immediate. -/
def State.immWord (s : State) : Word := joinBytes s.imm1 s.imm0

/-- The reads of one immediate byte. -/
def State.immRead (s : State) : List Access := [.read s.pc s.imm0]

/-- The reads of two. -/
def State.immReads (s : State) : List Access := [.read s.pc s.imm0, .read (s.pc + 1) s.imm1]

/-- The reads of a POP. -/
def State.popReads (s : State) : List Access :=
  [.read s.sp (s.readValue s.sp), .read (s.sp + 1) ((s.takeAnswer s.sp).readValue (s.sp + 1))]

/-- The accesses of each form after the opcode fetch, in order, if none fails: the table of R47. -/
def State.accessesOf (s : State) (f : Form) : List Access :=
  match f with
  | .ldRegImm _ | .ldHLSpOffset => s.immRead
  | .ldPairImm _ | .ldSpImm => s.immReads
  | .ldAFromHL => [.read (s.pair .HL) (s.readValue (s.pair .HL))]
  | .ldHLFromReg r => [.write (s.pair .HL) (s.reg r)]
  | .ldBCFromA => [.write (s.pair .BC) (s.reg .A)]
  | .ldDEFromA => [.write (s.pair .DE) (s.reg .A)]
  | .ldHLFromImm => s.immRead ++ [.write (s.pair .HL) s.imm0]
  | .ldAbsFromA => s.immReads ++ [.write s.immWord (s.reg .A)]
  | .ldAbsFromSp => s.immReads ++ [.write s.immWord (loByte s.sp), .write (s.immWord + 1) (hiByte s.sp)]
  | .ldAFromAbs => s.immReads ++ [.read s.immWord ((s.afterAccesses s.immReads).readValue s.immWord)]
  | .ldhImmFromA => s.immRead ++ [.write (highPage s.imm0) (s.reg .A)]
  | .ldhAFromImm => s.immRead ++ [.read (highPage s.imm0) ((s.afterAccesses s.immRead).readValue (highPage s.imm0))]
  | .ldhCFromA => [.write (highPage (s.reg .C)) (s.reg .A)]
  | .ldhAFromC => [.read (highPage (s.reg .C)) (s.readValue (highPage (s.reg .C)))]
  | .alu _ x => s.operandAccesses x
  | .incHLMem => [.read (s.pair .HL) (s.readValue (s.pair .HL)), .write (s.pair .HL) (s.readValue (s.pair .HL) + 1)]
  | .push p => [.write (s.sp - 1) (s.reg p.hi), .write (s.sp - 2) (s.reg p.lo)]
  | .pushAF => [.write (s.sp - 1) (s.reg .A), .write (s.sp - 2) s.readF]
  | .pop _ | .popAF => s.popReads
  | .nop | .halt | .ldRegReg _ _ | .ldSpFromHL | .incReg _ | .incPair _ | .incSp | .addHL _ => []

/-! ### Two runs side by side -/

/-- Two states that differ in the four cycle counters at most. -/
def SameButCounters (s u : State) : Prop :=
  u = { s with m := u.m, t := u.t, clockM := u.clockM, clockT := u.clockT }

/-- Two states that differ in the stored flags at most. -/
def SameButFlags (s u : State) : Prop := u = { s with flags := u.flags }

/-- Two outcomes that end alike, in states related by `R`, or in the same fault or refusal. -/
def EndAlike (R : State → State → Prop) (o o' : Host.Outcome State Fault Refusal) : Prop :=
  match o, o' with
  | .next t, .next u => R t u
  | .fault f, .fault g => f = g
  | .refused r, .refused q => r = q
  | _, _ => False

/-- The core is about to take a step: it is its turn and it is RUNNING (R25, R80). -/
structure AboutToStep (s : State) : Prop where
  turn : nextTurn s = .core
  running : s.runState = .running

/-- The instruction the byte at `PC` decodes to under the dispatch table in force, if the fetch is answered (R71, R81). -/
def State.nextInstr (s : State) : Option Instr := s.decodeByte (s.readValue s.pc)

/-- The state an instruction starts from inside a step: its turn taken, its opcode fetched, `PC` past it (R80, R81). -/
def State.fetched (s : State) : State :=
  { s.takeAnswer s.pc with schedule := s.schedule.tail, bus := [.read s.pc (s.readValue s.pc)], pc := s.pc + 1 }

end Sys2Proof.Machine
end

