-- ==== Sys2Proof/Certificates/Slice0/Obligations.lean ====
section
/-! DEFINITION. The statements for the provers, from the numbered rules of spec/. `exec` is the handler level (R85): `PC` is
already past the opcode byte, and an immediate is the byte at `PC`. Where a clause rests on a decision of the spec or on the
model's choice its docstring names the decision and the log entry. -/

open Sys2Proof Sys2Proof.Machine

/-! ### Encoding and decoding -/

/-- Decoding the bytes of a well-formed line, whatever follows them, gives the line back and leaves what follows (R61, R62,
R69, R71). The opcode bytes are the spec's general knowledge (D2, log 2). -/
def Obligations.DecodeOfEncodeGivesTheLineBack : Prop :=
  ∀ (l : Line) (rest : List Byte), l.wellFormed = true → decode (encode l ++ rest) = .ok (l, rest)

/-- Whatever the decoder accepts is a well-formed line whose encoding stood at the head of the bytes (R61, R69 to R71; D2,
log 2). -/
def Obligations.DecodedBytesAreTheLinesEncoding : Prop :=
  ∀ (bytes rest : List Byte) (l : Line), decode bytes = .ok (l, rest) →
    l.wellFormed = true ∧ bytes = encode l ++ rest

/-- A few words of the opcode table, written out from the spec's encodings, decode to their instructions (R69; D2, log 2). -/
def Obligations.SpecWordsDecodeToTheirInstructions : Prop :=
  decodeOpcode 0b00000000 = some .nop ∧ decodeOpcode 0b01110110 = some .halt ∧
  decodeOpcode 0b01000001 = some .ld_B_C ∧ decodeOpcode 0b00111110 = some .ld_A_n ∧
  decodeOpcode 0b01110111 = some .ld_mHL_A ∧ decodeOpcode 0b10011110 = some .sbc_A_mHL ∧
  decodeOpcode 0b00001001 = some .add_HL_BC ∧ decodeOpcode 0b11111000 = some .ld_HL_SPe ∧
  decodeOpcode 0b11110101 = some .push_AF ∧ decodeTableWord 24 0xC234EA = some .ld_mnn_A

/-- The decoder refuses exactly the 87 bytes R70 lists, and a step that fetches a byte the dispatch table in force does not
assign, one of those 87 under the default table, is refused by name (R70; D5, log 7; D2, log 2). -/
def Obligations.UnassignedOpcodesAreRefused : Prop :=
  (∀ op : Byte, decodeOpcode op = none ↔ op ∈ unassignedBytes) ∧
  (∀ s : State, AboutToStep s → s.canRead s.pc → s.nextInstr = none →
    step s = .refused (.unassignedOpcode (s.readValue s.pc))) ∧
  ∀ s : State, AboutToStep s → s.canRead s.pc → s.params.table = none → s.readValue s.pc ∈ unassignedBytes →
    step s = .refused (.unassignedOpcode (s.readValue s.pc))

/-! ### The step -/

/-- A step of a RUNNING core runs the instruction its opcode byte decodes to, with `PC` past that byte and the fetch on the
bus (R80, R81, R82; D4, log 6); under the default dispatch table that is the table's (R71; D2, log 2). -/
def Obligations.StepRunsTheDecodedInstruction : Prop :=
  (∀ (s : State) (i : Instr), AboutToStep s → s.canRead s.pc → s.nextInstr = some i → step s = exec i s.fetched) ∧
  ∀ s : State, s.params.table = none → s.nextInstr = decodeOpcode (s.readValue s.pc)

/-- A STOPPED or HALTED core takes no step: its turn passes and nothing at all changes (R80, R201; D6, log 8). -/
def Obligations.IdleCoreChangesNothing : Prop :=
  ∀ s : State, nextTurn s = .core → s.runState ≠ .running → step s = .next { s with schedule := s.schedule.tail }

/-- A fetch that the memory collaborator fails ends the step in a fault before anything is decoded (R51, R182; D9, log 13). -/
def Obligations.FailedFetchFaultsBeforeDecode : Prop :=
  ∀ s : State, AboutToStep s → s.accessFails .read s.pc = true → step s = .fault (.memoryAccess .read s.pc)

/-- A step that runs an instruction moves `PC` by the instruction's length, modulo 65536, and in no other way, and accounts
exactly the instruction's cost (R15, R83, R84, R86, R199). -/
def Obligations.StepAdvancesPcByTheLength : Prop :=
  ∀ (s t : State) (i : Instr), AboutToStep s → s.nextInstr = some i → step s = .next t →
    t.pc = s.pc + BitVec.ofNat 16 i.length ∧ Charged (formCost i.form).1 (formCost i.form).2 s t

/-! ### The whole machine -/

/-- The block raises no exception (R175, R176): every instruction completes in every state, unless the memory collaborator
fails one of its accesses after serving those before it, and then that failure is what is answered (R51; D9, log 13); with the
default memory, which never fails (R51; log 13), every instruction completes. -/
def Obligations.EveryInstructionCompletesUnlessMemoryFails : Prop :=
  (∀ (i : Instr) (s : State), (∃ t, exec i s = .next t) ∨
    ∃ xs x ys, s.accessesOf i.form = xs ++ x :: ys ∧ Served s xs ∧
      (s.afterAccesses xs).accessFails x.kind x.addr = true ∧ exec i s = .fault (.memoryAccess x.kind x.addr)) ∧
  ∀ (i : Instr) (s : State), s.plainMemory = true → ∃ t, exec i s = .next t

/-- Every instruction makes exactly the accesses the table of R47 lists, once each, in that order (R47, R49; D22, log 15), and
completes if they are served; if one fails after those before it are served, immediate, operand or stack access alike, the
instruction ends in that fault and makes no later access (R51; D9, log 13). -/
def Obligations.FailingAccessFaultsTheInstruction : Prop :=
  (∀ (i : Instr) (s : State), Served s (s.accessesOf i.form) →
    ∃ t, exec i s = .next t ∧ Accessed (s.accessesOf i.form) s t) ∧
  ∀ (i : Instr) (s : State) (xs ys : List Access) (x : Access), s.accessesOf i.form = xs ++ x :: ys → Served s xs →
    (s.afterAccesses xs).accessFails x.kind x.addr = true → exec i s = .fault (.memoryAccess x.kind x.addr)

/-- An instruction that completes has accounted its constant cost once, whatever its operands and the state; the cost is the
table's (R84, R199; C2, C9, log 23). -/
def Obligations.EveryInstructionChargesItsCost : Prop :=
  ∀ (i : Instr) (s t : State), exec i s = .next t → Charged (formCost i.form).1 (formCost i.form).2 s t

/-- `halted` is true after a step exactly if `HALT` has just set it, or it was true and no `Reset` or `Wake` was raised: it is
never cleared from inside the core (R23). -/
def Obligations.HaltedIsSetByHaltAndClearedFromOutside : Prop :=
  ∀ s t : State, step s = .next t →
    (t.halted = true ↔
      (AboutToStep s ∧ s.nextInstr = some .halt) ∨
      (s.halted = true ∧ ∀ ev, nextTurn s = .owner ev → ev.reset = false ∧ ev.wake = false))

/-- `stopped` is true after a step exactly if `Reset` has just set it, or it was true and no `Start` was raised (R24, R179; D6,
log 9). -/
def Obligations.StoppedIsSetByResetAndClearedByStart : Prop :=
  ∀ s t : State, step s = .next t →
    (t.stopped = true ↔
      (∃ ev, nextTurn s = .owner ev ∧ ev.reset = true) ∨
      (s.stopped = true ∧ ∀ ev, nextTurn s = .owner ev → ev.start = false))

/-- The sources of a new `SP`: an immediate, `HL`, plus one, minus two, plus two; every other instruction keeps it (R16, R81). -/
def Obligations.StackPointerHasTheseSourcesOnly : Prop :=
  ∀ (i : Instr) (s t : State), exec i s = .next t →
    t.sp = match i.form with
      | .ldSpImm => s.immWord
      | .ldSpFromHL => s.pair .HL
      | .incSp => s.sp + 1
      | .push _ | .pushAF => s.sp - 2
      | .pop _ | .popAF => s.sp + 2
      | _ => s.sp

/-- No result depends on `m`, `t`, `clock_m` or `clock_t`: two states that differ in them alone step alike, to states that
differ in them alone (R22, R200; D3). -/
def Obligations.NothingDependsOnTheCounters : Prop :=
  ∀ s u : State, SameButCounters s u → EndAlike SameButCounters (step s) (step u)

/-- Every step keeps the invariant: canonical memory, counters in range, a STOPPED core not HALTED, at most five accesses
(R21, R22, R47, R178; memory's form is the model's own, log 1). -/
def Obligations.StepKeepsTheInvariant : Prop :=
  ∀ s t : State, Inv s → step s = .next t → Inv t

/-- The reset state meets the invariant (R26; log 1, log 22). -/
def Obligations.ResetMeetsTheInvariant : Prop := Inv State.reset

/-! ### Memory, immediates, registers, flags -/

/-- In RAM a byte written replaces the content of its address and nothing else (R42), and a read answers the content, which is
the byte last written there or the launch content (R41). RAM is every address outside the open ranges, all of them with the
default memory. At an address in an open range (R49; log 13) an access takes the environment's next answer, if there is one,
and nothing is said of the content a write leaves there, nor of the byte a read answers. -/
def Obligations.ByteWrittenIsTheByteRead : Prop :=
  (∀ (s : State) (a : Word) (v : Byte), s.canWrite a →
    ∃ t, writeByte a v s = .next t ∧ (s.isOpen a = false → t.byteAt a = v) ∧ OnlyWrites { mem := [a] } s t ∧
      t.pc = s.pc ∧ CountersKept s t ∧ Accessed [.write a v] s t ∧
      (s.isOpen a = false → s.canRead a →
        ∃ u, readByte a t = .next (v, u) ∧ OnlyWrites {} t u ∧ u.pc = t.pc ∧ CountersKept t u ∧
          Accessed [.read a v] t u)) ∧
  ∀ (s : State) (a : Word) (v : Byte), s.serves (.read a v) →
    ∃ t, readByte a s = .next (v, t) ∧ (s.isOpen a = false → v = s.byteAt a) ∧ OnlyWrites {} s t ∧ t.pc = s.pc ∧
      CountersKept s t ∧ Accessed [.read a v] s t

/-- A word is two bytes, low byte first at the lower address, the second address modulo 65536, written and read alike (R43,
R44, R45; D8, log 14). -/
def Obligations.WordAccessIsLittleEndian : Prop :=
  (∀ (s : State) (a v : Word), Served s [.write a (loByte v), .write (a + 1) (hiByte v)] →
    ∃ t, writeWord a v s = .next t ∧ (s.isOpen a = false → t.byteAt a = loByte v) ∧
      (s.isOpen (a + 1) = false → t.byteAt (a + 1) = hiByte v) ∧ OnlyWrites { mem := [a, a + 1] } s t ∧ t.pc = s.pc ∧
      CountersKept s t ∧ Accessed [.write a (loByte v), .write (a + 1) (hiByte v)] s t) ∧
  (∀ (s : State) (a : Word) (lo hi : Byte), Served s [.read a lo, .read (a + 1) hi] →
    ∃ u w, readWord a s = .next (w, u) ∧ w.toNat = lo.toNat + 256 * hi.toNat ∧ OnlyWrites {} s u ∧ u.pc = s.pc ∧
      CountersKept s u ∧ Accessed [.read a lo, .read (a + 1) hi] s u) ∧
  ∀ (s : State) (a v : Word), s.plainMemory = true →
    ∃ t u, writeWord a v s = .next t ∧ readWord a t = .next (v, u)

/-- `Imm8` answers the byte at `PC` and moves `PC` past it; `Imm16` answers the two bytes, the low one at the lower address,
and moves `PC` past both; both wrap modulo 65536 (R67, R68; D8, log 14). -/
def Obligations.ImmediatesComeFromPcAndAdvanceIt : Prop :=
  (∀ (s : State) (n : Byte), Served s [.read s.pc n] →
    ∃ t, imm8 s = .next (n, t) ∧ t.pc = s.pc + 1 ∧ OnlyWrites {} s t ∧ CountersKept s t ∧ Accessed [.read s.pc n] s t) ∧
  ∀ (s : State) (lo hi : Byte), Served s [.read s.pc lo, .read (s.pc + 1) hi] →
    ∃ t nn, imm16 s = .next (nn, t) ∧ nn.toNat = lo.toNat + 256 * hi.toNat ∧ t.pc = s.pc + 2 ∧ OnlyWrites {} s t ∧
      CountersKept s t ∧ Accessed [.read s.pc lo, .read (s.pc + 1) hi] s t

/-- Writing a pair and reading its halves, or the halves and the pair, is exact; `AF` drops the low nibble of `F` (R13, R14;
D12 for `AF`, log 4). -/
def Obligations.PairViewsRoundTrip : Prop :=
  (∀ (s : State) (p : Pair) (v : Word), (s.setPair p v).pair p = v ∧
    (s.setPair p v).reg p.hi = v.extractLsb' 8 8 ∧ (s.setPair p v).reg p.lo = v.extractLsb' 0 8) ∧
  (∀ (s : State) (p : Pair) (x y : Byte),
    (((s.setReg p.hi x).setReg p.lo y).pair p).toNat = x.toNat * 256 + y.toNat) ∧
  ∀ (s : State) (v : Word), (s.setPairAF v).pairAF = v &&& 0xFFF0

/-- `setFlag` changes one bit of `F` and leaves the other seven, and an instruction changes no flag its rule does not list
(R19). Which flags each lists is the derived table under R20; that `LD HL,SP+e` keeps `Z` and `N` is D10 (R160; log 18), that
`ADD HL,rr` keeps `Z` is D11 (R153; log 17). -/
def Obligations.FlagEncoderWritesOnlyNamedFlags : Prop :=
  (∀ (s : State) (f : Flag) (b : Bool),
    (s.setFlags (s.flags.set f b)).readF = (s.readF &&& ~~~f.mask) ||| (if b then f.mask else 0)) ∧
  ∀ (i : Instr) (s t : State), exec i s = .next t → ∀ f, f ∉ formFlags i.form → t.flag f = s.flag f

/-- `getFlag` is whether the bit of `F` is set; `ADC` and `SBC` take `Cf` into their result and `PUSH AF` stores the byte; any
other instruction ends alike whatever the flags are, and so do `ADC` and `SBC` whatever the flags other than `Cf` (R20). The
sums are those of R126 and R130, the place of the byte of `PUSH AF` that of R167 (D15, log 19). -/
def Obligations.FlagsAreReadByAdcSbcAndPushAfOnly : Prop :=
  (∀ (s : State) (f : Flag), s.flag f = decide (s.readF &&& f.mask ≠ 0)) ∧
  (∀ (i : Instr) (x : Operand8) (s t : State), exec i s = .next t →
    (i.form = .alu .adc x → t.reg .A = s.reg .A + s.operandValue x + (if s.flag .Cf then 1 else 0)) ∧
    (i.form = .alu .sbc x → t.reg .A = s.reg .A - s.operandValue x - (if s.flag .Cf then 1 else 0)) ∧
    (i.form = .pushAF → t.bus = s.bus ++ [.write (s.sp - 1) (s.reg .A), .write (s.sp - 2) s.readF] ∧
      (s.isOpen (s.sp - 2) = false → t.byteAt (s.sp - 2) = s.readF))) ∧
  ∀ (i : Instr) (s u : State), SameButFlags s u → i.form ≠ .pushAF →
    ((∃ x, i.form = .alu .adc x ∨ i.form = .alu .sbc x) → u.flag .Cf = s.flag .Cf) →
    EndAlike SameButFlags (exec i s) (exec i u)

/-- The low nibble of `F` reads as zero in every state, and a write of the whole byte keeps its top nibble alone (R17; D12,
log 4). -/
def Obligations.FlagByteLowNibbleReadsZero : Prop :=
  ∀ (s : State) (v : Byte), s.readF &&& 0x0F = 0 ∧ (s.writeF v).readF = v &&& 0xF0

/-- `Clock(mc, tc)` records the cost and adds it to the totals, modulo `2^P_CLOCK_BITS` if that is finite, and writes nothing
else; the costs of the default ratio `T = 4 M` are those of the listed forms (R83). -/
def Obligations.ClockRecordsAndAdds : Prop :=
  (∀ (s : State) (mc tc : Nat), (s.clock mc tc).m = mc ∧ (s.clock mc tc).t = tc ∧
    (s.params.clockBits = none →
      (s.clock mc tc).clockM = s.clockM + mc ∧ (s.clock mc tc).clockT = s.clockT + tc) ∧
    (∀ k, s.params.clockBits = some k →
      (s.clock mc tc).clockM = (s.clockM + mc) % 2 ^ k ∧ (s.clock mc tc).clockT = (s.clockT + tc) % 2 ^ k) ∧
    OnlyWrites {} s (s.clock mc tc) ∧ (s.clock mc tc).pc = s.pc ∧ Accessed [] s (s.clock mc tc)) ∧
  ∀ i : Instr, (formCost i.form).2 = 4 * (formCost i.form).1 ↔ hasDefaultRatio i.form = true

/-! ### Reset and the external events -/

/-- The reset state holds the table's values; it is the power-on state, and a `Reset` from any state gives the same, memory
untouched (R26, R195, R196). That this holds whatever is raised with the `Reset` is R182's, and for a waking environment's
writes the model's reading (log 10); that the schedule, the answers and the parameters are kept and the bus emptied is the
model's choice (log 22). -/
def Obligations.ResetStateHoldsTheseValues : Prop :=
  (∀ r, State.reset.reg r = 0x00) ∧ State.reset.readF = 0x00 ∧ (∀ f, State.reset.flag f = false) ∧
  State.reset.pc = 0x0000 ∧ State.reset.sp = 0x0000 ∧ State.reset.m = 0 ∧ State.reset.t = 0 ∧
  State.reset.clockM = 0 ∧ State.reset.clockT = 0 ∧ State.reset.halted = false ∧ State.reset.stopped = true ∧
  ∀ (s : State) (ev : Events), nextTurn s = .owner ev → ev.reset = true →
    step s = .next
      { State.reset with
        mem := s.mem, schedule := s.schedule.tail, answers := s.answers, params := s.params }

/-- A `Reset` gives every field of the core its power-on value, whatever the state before (R195); that it does so whatever else
is raised with it is R182's and the model's reading (log 10). -/
def Obligations.ResetEventGivesPowerOnValues : Prop :=
  ∀ (s : State) (ev : Events), nextTurn s = .owner ev → ev.reset = true →
    ∃ t, step s = .next t ∧ (∀ r, t.reg r = 0x00) ∧ t.readF = 0x00 ∧ t.pc = 0x0000 ∧ t.sp = 0x0000 ∧ t.m = 0 ∧ t.t = 0 ∧
      t.clockM = 0 ∧ t.clockT = 0 ∧ t.halted = false ∧ t.stopped = true

/-- The core's reset touches no memory byte (R196); that this holds whatever is raised with it, a waking environment's writes
too, is the model's reading (R182; log 10). The memory's own reset, a separate act, sets every byte of the default memory to
0x00 and touches nothing of the core (R196; D18, log 9). With another `P_MEM` the spec does not say what it clears to, and the
model takes each byte of the turn's image, 0x00 where it has none (log 25). -/
def Obligations.CoreResetAndMemoryResetAreSeparate : Prop :=
  (∀ (s t : State) (ev : Events), nextTurn s = .owner ev → ev.reset = true → step s = .next t →
    ∀ a, t.byteAt a = s.byteAt a) ∧
  ∀ (s : State) (image : List (Word × Byte)), nextTurn s = .memoryReset image →
    ∃ t, step s = .next t ∧ (s.plainMemory = true → ∀ a, t.byteAt a = 0x00) ∧
      (s.plainMemory = false → ∀ a, t.byteAt a = ((image.find? fun e => e.1 == a).map Prod.snd).getD 0x00) ∧
      t = { s with schedule := s.schedule.tail, mem := t.mem }

/-- `Start` clears `stopped` and nothing else; `Wake` clears `halted` and nothing else, but where `P_WAKE_HAVOC` is set and
the environment writes `PC`, `SP` and the two bytes at the new `SP`, and then it writes nothing more (R178, R179, R181; D6, D7,
log 9, log 11). -/
def Obligations.StartAndWakeWriteTheirOwnBit : Prop :=
  (∀ s : State, nextTurn s = .owner { start := true } →
    step s = .next { s with schedule := s.schedule.tail, stopped := false }) ∧
  (∀ (s : State) (h : Option Havoc), nextTurn s = .owner { wake := true, havoc := h } →
    h = none ∨ s.params.wakeHavoc = false →
    step s = .next { s with schedule := s.schedule.tail, halted := false }) ∧
  ∀ (s : State) (w : Havoc), nextTurn s = .owner { wake := true, havoc := some w } → s.params.wakeHavoc = true →
    ∃ t, step s = .next t ∧ t.pc = w.pc ∧ t.sp = w.sp ∧ t.byteAt w.sp = w.lo ∧ t.byteAt (w.sp + 1) = w.hi ∧
      (∀ a, a ≠ w.sp → a ≠ w.sp + 1 → t.byteAt a = s.byteAt a) ∧
      t = { s with schedule := s.schedule.tail, halted := false, pc := t.pc, sp := t.sp, mem := t.mem }

/-- Several events at one boundary: `Reset` overrides the others, and `Start` with `Wake` is either one after the other (R182;
log 10). -/
def Obligations.EventsAtOneBoundary : Prop :=
  (∀ (s : State) (ev : Events) (rest : List Turn), ev.reset = true →
    step { s with schedule := .owner ev :: rest } = step { s with schedule := .owner { reset := true } :: rest }) ∧
  ∀ (s : State) (h : Option Havoc) (rest : List Turn),
    step { s with schedule := .owner { start := true, wake := true, havoc := h } :: rest } =
      Host.Core.run Sys2Proof.core 2
        { s with schedule := .owner { start := true } :: .owner { wake := true, havoc := h } :: rest } ∧
    step { s with schedule := .owner { start := true, wake := true, havoc := h } :: rest } =
      Host.Core.run Sys2Proof.core 2
        { s with schedule := .owner { wake := true, havoc := h } :: .owner { start := true } :: rest }

/-! ### The control instructions -/

/-- `NOP` changes nothing but the clock; `HALT` sets `halted`; neither touches `stopped` or `PC` (R87, R88). -/
def Obligations.NopAndHaltResults : Prop :=
  (∀ s : State, ∃ t, exec .nop s = .next t ∧ t.pc = s.pc ∧ OnlyWrites {} s t ∧ Charged 1 4 s t ∧ Accessed [] s t) ∧
  ∀ s : State, ∃ t, exec .halt s = .next t ∧ t.halted = true ∧ t.pc = s.pc ∧ OnlyWrites { halted := true } s t ∧
    Charged 1 4 s t ∧ Accessed [] s t

/-! ### The loads -/

/-- `LD r,r'` (R91). -/
def Obligations.LoadRegisterFromRegister : Prop :=
  ∀ (i : Instr) (d r : Reg) (s : State), i.form = .ldRegReg d r →
    ∃ t, exec i s = .next t ∧ t.reg d = s.reg r ∧ t.pc = s.pc ∧ OnlyWrites { regs := [d] } s t ∧ Charged 1 4 s t ∧
      Accessed [] s t

/-- `LD r,n` (R92). -/
def Obligations.LoadRegisterFromImmediate : Prop :=
  ∀ (i : Instr) (r : Reg) (s : State) (n : Byte), i.form = .ldRegImm r → Served s [.read s.pc n] →
    ∃ t, exec i s = .next t ∧ t.reg r = n ∧ t.pc = s.pc + 1 ∧ OnlyWrites { regs := [r] } s t ∧
      Charged 2 8 s t ∧ Accessed [.read s.pc n] s t

/-- `LD BC,nn`, `LD DE,nn`, `LD HL,nn`: the first byte goes to the low half (R93; D15, log 19). -/
def Obligations.LoadPairFromImmediate : Prop :=
  ∀ (i : Instr) (p : Pair) (s : State) (lo hi : Byte), i.form = .ldPairImm p →
    Served s [.read s.pc lo, .read (s.pc + 1) hi] →
    ∃ t, exec i s = .next t ∧ t.reg p.lo = lo ∧ t.reg p.hi = hi ∧ t.pc = s.pc + 2 ∧
      OnlyWrites { regs := [p.hi, p.lo] } s t ∧ Charged 3 12 s t ∧ Accessed [.read s.pc lo, .read (s.pc + 1) hi] s t

/-- `LD SP,nn` (R94). -/
def Obligations.LoadSpFromImmediate : Prop :=
  ∀ (s : State) (lo hi : Byte), Served s [.read s.pc lo, .read (s.pc + 1) hi] →
    ∃ t, exec .ld_SP_nn s = .next t ∧ t.sp.toNat = lo.toNat + 256 * hi.toNat ∧ t.pc = s.pc + 2 ∧
      OnlyWrites { sp := true } s t ∧ Charged 3 12 s t ∧ Accessed [.read s.pc lo, .read (s.pc + 1) hi] s t

/-- `LD A,(HL)` (R95). -/
def Obligations.LoadAFromHL : Prop :=
  ∀ (s : State) (v : Byte), Served s [.read (s.pair .HL) v] →
    ∃ t, exec .ld_A_mHL s = .next t ∧ t.reg .A = v ∧ t.pc = s.pc ∧ OnlyWrites { regs := [.A] } s t ∧ Charged 1 8 s t ∧
      Accessed [.read (s.pair .HL) v] s t

/-- `LD (HL),r`, `LD (BC),A`, `LD (DE),A` (R96, R97, R98). -/
def Obligations.StoreRegisterAtPair : Prop :=
  ∀ (i : Instr) (p : Pair) (r : Reg) (s : State),
    (i.form = .ldHLFromReg r ∧ p = .HL) ∨ (i.form = .ldBCFromA ∧ p = .BC ∧ r = .A) ∨
      (i.form = .ldDEFromA ∧ p = .DE ∧ r = .A) →
    s.canWrite (s.pair p) →
    ∃ t, exec i s = .next t ∧ (s.isOpen (s.pair p) = false → t.byteAt (s.pair p) = s.reg r) ∧ t.pc = s.pc ∧
      OnlyWrites { mem := [s.pair p] } s t ∧ Charged 1 8 s t ∧ Accessed [.write (s.pair p) (s.reg r)] s t

/-- `LD (HL),n` (R99). -/
def Obligations.StoreImmediateAtHL : Prop :=
  ∀ (s : State) (n : Byte), Served s [.read s.pc n, .write (s.pair .HL) n] →
    ∃ t, exec .ld_mHL_n s = .next t ∧ (s.isOpen (s.pair .HL) = false → t.byteAt (s.pair .HL) = n) ∧ t.pc = s.pc + 1 ∧
      OnlyWrites { mem := [s.pair .HL] } s t ∧ Charged 2 12 s t ∧ Accessed [.read s.pc n, .write (s.pair .HL) n] s t

/-- `LD (nn),A` (R100). -/
def Obligations.StoreAAtAbsolute : Prop :=
  ∀ (s : State) (lo hi : Byte) (nn : Word), nn = joinBytes hi lo →
    Served s [.read s.pc lo, .read (s.pc + 1) hi, .write nn (s.reg .A)] →
    ∃ t, exec .ld_mnn_A s = .next t ∧ (s.isOpen nn = false → t.byteAt nn = s.reg .A) ∧ t.pc = s.pc + 2 ∧
      OnlyWrites { mem := [nn] } s t ∧ Charged 3 16 s t ∧
      Accessed [.read s.pc lo, .read (s.pc + 1) hi, .write nn (s.reg .A)] s t

/-- `LD (nn),SP`: `SP[7:0]` at `nn`, `SP[15:8]` at `nn + 1` modulo 65536 (R101; D8, log 14). -/
def Obligations.StoreSpAtAbsolute : Prop :=
  ∀ (s : State) (lo hi : Byte) (nn : Word), nn = joinBytes hi lo →
    Served s [.read s.pc lo, .read (s.pc + 1) hi, .write nn (loByte s.sp), .write (nn + 1) (hiByte s.sp)] →
    ∃ t, exec .ld_mnn_SP s = .next t ∧ (s.isOpen nn = false → t.byteAt nn = loByte s.sp) ∧
      (s.isOpen (nn + 1) = false → t.byteAt (nn + 1) = hiByte s.sp) ∧ t.pc = s.pc + 2 ∧
      OnlyWrites { mem := [nn, nn + 1] } s t ∧ Charged 3 20 s t ∧
      Accessed [.read s.pc lo, .read (s.pc + 1) hi, .write nn (loByte s.sp), .write (nn + 1) (hiByte s.sp)] s t

/-- `LD A,(nn)` (R102). -/
def Obligations.LoadAFromAbsolute : Prop :=
  ∀ (s : State) (lo hi v : Byte) (nn : Word), nn = joinBytes hi lo →
    Served s [.read s.pc lo, .read (s.pc + 1) hi, .read nn v] →
    ∃ t, exec .ld_A_mnn s = .next t ∧ t.reg .A = v ∧ t.pc = s.pc + 2 ∧ OnlyWrites { regs := [.A] } s t ∧
      Charged 3 16 s t ∧ Accessed [.read s.pc lo, .read (s.pc + 1) hi, .read nn v] s t

/-- `LDH (n),A` and `LD (C),A`: the address is 0xFF00 plus the unsigned offset (R103, R105). -/
def Obligations.StoreAInHighPage : Prop :=
  (∀ offset : Byte, (highPage offset).toNat = 0xFF00 + offset.toNat) ∧
  (∀ (s : State) (n : Byte), Served s [.read s.pc n, .write (highPage n) (s.reg .A)] →
    ∃ t, exec .ldh_mn_A s = .next t ∧ (s.isOpen (highPage n) = false → t.byteAt (highPage n) = s.reg .A) ∧
      t.pc = s.pc + 1 ∧ OnlyWrites { mem := [highPage n] } s t ∧ Charged 2 12 s t ∧
      Accessed [.read s.pc n, .write (highPage n) (s.reg .A)] s t) ∧
  ∀ s : State, Served s [.write (highPage (s.reg .C)) (s.reg .A)] →
    ∃ t, exec .ld_mC_A s = .next t ∧
      (s.isOpen (highPage (s.reg .C)) = false → t.byteAt (highPage (s.reg .C)) = s.reg .A) ∧ t.pc = s.pc ∧
      OnlyWrites { mem := [highPage (s.reg .C)] } s t ∧ Charged 2 8 s t ∧
      Accessed [.write (highPage (s.reg .C)) (s.reg .A)] s t

/-- `LDH A,(n)` and `LD A,(C)`: the address is 0xFF00 plus the unsigned offset (R104, R106). -/
def Obligations.LoadAFromHighPage : Prop :=
  (∀ offset : Byte, (highPage offset).toNat = 0xFF00 + offset.toNat) ∧
  (∀ (s : State) (n v : Byte), Served s [.read s.pc n, .read (highPage n) v] →
    ∃ t, exec .ldh_A_mn s = .next t ∧ t.reg .A = v ∧ t.pc = s.pc + 1 ∧ OnlyWrites { regs := [.A] } s t ∧
      Charged 2 12 s t ∧ Accessed [.read s.pc n, .read (highPage n) v] s t) ∧
  ∀ (s : State) (v : Byte), Served s [.read (highPage (s.reg .C)) v] →
    ∃ t, exec .ld_A_mC s = .next t ∧ t.reg .A = v ∧ t.pc = s.pc ∧ OnlyWrites { regs := [.A] } s t ∧
      Charged 2 8 s t ∧ Accessed [.read (highPage (s.reg .C)) v] s t

/-- `LD SP,HL` (R107). -/
def Obligations.LoadSpFromHL : Prop :=
  ∀ s : State, ∃ t, exec .ld_SP_HL s = .next t ∧ t.sp.toNat = 256 * (s.reg .H).toNat + (s.reg .L).toNat ∧
    t.pc = s.pc ∧ OnlyWrites { sp := true } s t ∧ Charged 1 8 s t ∧ Accessed [] s t

/-! ### 8-bit arithmetic and logic -/

/-- The adder of `ADD` and `ADC` in exact sums (R122). -/
def Obligations.AdderFollowsItsRule : Prop :=
  ∀ (a x : Byte) (cin : Bool),
    let sum := a.toNat + x.toNat + cin.toNat
    (addCore a x cin).1.toNat = sum % 256 ∧
    ((addCore a x cin).2.z = true ↔ sum % 256 = 0) ∧ (addCore a x cin).2.n = false ∧
    ((addCore a x cin).2.h = true ↔ a.toNat % 16 + x.toNat % 16 + cin.toNat > 0xF) ∧
    ((addCore a x cin).2.c = true ↔ sum > 0xFF)

/-- The subtractor of `SUB`, `SBC` and `CP` in exact differences (R123). -/
def Obligations.SubtractorFollowsItsRule : Prop :=
  ∀ (a x : Byte) (cin : Bool),
    let diff : Int := a.toNat - x.toNat - cin.toNat
    ((subCore a x cin).1.toNat : Int) = diff % 256 ∧
    ((subCore a x cin).2.z = true ↔ diff % 256 = 0) ∧ (subCore a x cin).2.n = true ∧
    ((subCore a x cin).2.h = true ↔ x.toNat % 16 + cin.toNat > a.toNat % 16) ∧
    ((subCore a x cin).2.c = true ↔ x.toNat + cin.toNat > a.toNat)

/-- The integer laws of the 8-bit ALU: result and carry together are the exact sum, result and borrow the exact difference,
and the half-carries are those of the low nibbles (R142, the spec's own summary). -/
def Obligations.AluCarriesGiveTheExactInteger : Prop :=
  ∀ (a x : Byte) (cin : Bool),
    256 * (addCore a x cin).2.c.toNat + (addCore a x cin).1.toNat = a.toNat + x.toNat + cin.toNat ∧
    ((subCore a x cin).1.toNat : Int) - 256 * ((subCore a x cin).2.c.toNat : Int) =
      (a.toNat : Int) - (x.toNat : Int) - (cin.toNat : Int) ∧
    (addCore a x cin).2.h = (a.toNat % 16 + x.toNat % 16 + cin.toNat).testBit 4 ∧
    ((subCore a x cin).2.h = true ↔
      ((a.toNat % 16 : Nat) : Int) - ((x.toNat % 16 : Nat) : Int) - (cin.toNat : Int) < 0)

/-- `ADD A,x` and `ADC A,x` for every operand (R121, R122, R124 to R127). -/
def Obligations.AddAndAdcResults : Prop :=
  ∀ (i : Instr) (o : AluOp) (x : Operand8) (s : State) (cin : Nat), i.form = .alu o x →
    (o = .add ∧ cin = 0) ∨ (o = .adc ∧ cin = (s.flag .Cf).toNat) → s.canReadOperand x →
    ∃ t, exec i s = .next t ∧
      (t.reg .A).toNat = ((s.reg .A).toNat + (s.operandValue x).toNat + cin) % 256 ∧
      (t.flag .Z = true ↔ ((s.reg .A).toNat + (s.operandValue x).toNat + cin) % 256 = 0) ∧ t.flag .N = false ∧
      (t.flag .Hf = true ↔ (s.reg .A).toNat % 16 + (s.operandValue x).toNat % 16 + cin > 0xF) ∧
      (t.flag .Cf = true ↔ (s.reg .A).toNat + (s.operandValue x).toNat + cin > 0xFF) ∧
      t.pc = s.pc ∧ OnlyWrites { regs := [.A], flags := [.Z, .N, .Hf, .Cf] } s t ∧
      Charged 1 (if x = .memHL then 8 else 4) s t ∧ Accessed (s.operandAccesses x) s t

/-- `SUB x` and `SBC A,x` for every operand (R121, R123, R128 to R131). -/
def Obligations.SubAndSbcResults : Prop :=
  ∀ (i : Instr) (o : AluOp) (x : Operand8) (s : State) (cin : Nat), i.form = .alu o x →
    (o = .sub ∧ cin = 0) ∨ (o = .sbc ∧ cin = (s.flag .Cf).toNat) → s.canReadOperand x →
    ∃ t, exec i s = .next t ∧
      ((t.reg .A).toNat : Int) = (((s.reg .A).toNat : Int) - (s.operandValue x).toNat - cin) % 256 ∧
      (t.flag .Z = true ↔ (((s.reg .A).toNat : Int) - (s.operandValue x).toNat - cin) % 256 = 0) ∧ t.flag .N = true ∧
      (t.flag .Hf = true ↔ (s.operandValue x).toNat % 16 + cin > (s.reg .A).toNat % 16) ∧
      (t.flag .Cf = true ↔ (s.operandValue x).toNat + cin > (s.reg .A).toNat) ∧
      t.pc = s.pc ∧ OnlyWrites { regs := [.A], flags := [.Z, .N, .Hf, .Cf] } s t ∧
      Charged 1 (if x = .memHL then 8 else 4) s t ∧ Accessed (s.operandAccesses x) s t

/-- `CP x` for every operand: the flags of a subtraction without borrow in, `A` unchanged (R121, R123, R138, R139). -/
def Obligations.CompareResults : Prop :=
  ∀ (i : Instr) (x : Operand8) (s : State), i.form = .alu .cp x → s.canReadOperand x →
    ∃ t, exec i s = .next t ∧
      (t.flag .Z = true ↔ s.reg .A = s.operandValue x) ∧ t.flag .N = true ∧
      (t.flag .Hf = true ↔ (s.operandValue x).toNat % 16 > (s.reg .A).toNat % 16) ∧
      (t.flag .Cf = true ↔ (s.operandValue x).toNat > (s.reg .A).toNat) ∧
      t.pc = s.pc ∧ OnlyWrites { flags := [.Z, .N, .Hf, .Cf] } s t ∧
      Charged 1 (if x = .memHL then 8 else 4) s t ∧ Accessed (s.operandAccesses x) s t

/-- `AND x`, `XOR x`, `OR x` for every operand (R132 to R137). The flags other than `Z` are advisory in the source (K3,
log 16). -/
def Obligations.LogicResults : Prop :=
  ∀ (i : Instr) (o : AluOp) (x : Operand8) (s : State) (v : Byte), i.form = .alu o x →
    (o = .and ∧ v = s.reg .A &&& s.operandValue x) ∨ (o = .xor ∧ v = s.reg .A ^^^ s.operandValue x) ∨
      (o = .or ∧ v = s.reg .A ||| s.operandValue x) → s.canReadOperand x →
    ∃ t, exec i s = .next t ∧ t.reg .A = v ∧ (t.flag .Z = true ↔ v = 0) ∧ t.flag .N = false ∧
      (t.flag .Hf = true ↔ o = .and) ∧ t.flag .Cf = false ∧
      t.pc = s.pc ∧ OnlyWrites { regs := [.A], flags := [.Z, .N, .Hf, .Cf] } s t ∧
      Charged 1 (if x = .memHL then 8 else 4) s t ∧ Accessed (s.operandAccesses x) s t

/-- `INC r` (R140). -/
def Obligations.IncrementRegister : Prop :=
  ∀ (i : Instr) (r : Reg) (s : State), i.form = .incReg r →
    ∃ t, exec i s = .next t ∧ (t.reg r).toNat = ((s.reg r).toNat + 1) % 256 ∧
      (t.flag .Z = true ↔ s.reg r = 0xFF) ∧ t.flag .N = false ∧ (t.flag .Hf = true ↔ (s.reg r).toNat % 16 = 0xF) ∧
      t.pc = s.pc ∧ OnlyWrites { regs := [r], flags := [.Z, .N, .Hf] } s t ∧ Charged 1 4 s t ∧ Accessed [] s t

/-- `INC (HL)`: one read, then one write (R141; D22, log 15). -/
def Obligations.IncrementMemoryAtHL : Prop :=
  ∀ (s : State) (old new : Byte), new.toNat = (old.toNat + 1) % 256 →
    Served s [.read (s.pair .HL) old, .write (s.pair .HL) new] →
    ∃ t, exec .inc_mHL s = .next t ∧ (s.isOpen (s.pair .HL) = false → t.byteAt (s.pair .HL) = new) ∧
      (t.flag .Z = true ↔ old = 0xFF) ∧ t.flag .N = false ∧ (t.flag .Hf = true ↔ old.toNat % 16 = 0xF) ∧
      t.pc = s.pc ∧ OnlyWrites { flags := [.Z, .N, .Hf], mem := [s.pair .HL] } s t ∧ Charged 1 12 s t ∧
      Accessed [.read (s.pair .HL) old, .write (s.pair .HL) new] s t

/-! ### 16-bit arithmetic -/

/-- `INC BC`, `INC DE`, `INC HL`, `INC SP`: modulo 65536, no flag written (R151, R152). -/
def Obligations.IncrementWords : Prop :=
  (∀ (i : Instr) (p : Pair) (s : State), i.form = .incPair p →
    ∃ t, exec i s = .next t ∧ (t.pair p).toNat = ((s.pair p).toNat + 1) % 65536 ∧ t.pc = s.pc ∧
      OnlyWrites { regs := [p.hi, p.lo] } s t ∧ Charged 1 8 s t ∧ Accessed [] s t) ∧
  ∀ s : State, ∃ t, exec .inc_SP s = .next t ∧ t.sp.toNat = (s.sp.toNat + 1) % 65536 ∧ t.pc = s.pc ∧
    OnlyWrites { sp := true } s t ∧ Charged 1 8 s t ∧ Accessed [] s t

/-- `ADD HL,rr`: carries at bits 11 and 15, `N` cleared, `Z` kept (R153; D11, K4, log 17). -/
def Obligations.AddPairToHL : Prop :=
  ∀ (i : Instr) (p : Pair) (s : State), i.form = .addHL p →
    ∃ t, exec i s = .next t ∧ (t.pair .HL).toNat = ((s.pair .HL).toNat + (s.pair p).toNat) % 65536 ∧
      t.flag .N = false ∧ (t.flag .Hf = true ↔ (s.pair .HL).toNat % 4096 + (s.pair p).toNat % 4096 > 0x0FFF) ∧
      (t.flag .Cf = true ↔ (s.pair .HL).toNat + (s.pair p).toNat > 0xFFFF) ∧
      t.pc = s.pc ∧ OnlyWrites { regs := [.H, .L], flags := [.N, .Hf, .Cf] } s t ∧ Charged 1 8 s t ∧ Accessed [] s t

/-- `LD HL,SP+e`: the stored value takes `e` signed, the flags take the raw byte; `Z`, `N` and `SP` kept (R160; D10, log 18). -/
def Obligations.LoadHLFromSpOffset : Prop :=
  ∀ (s : State) (n : Byte) (e : Nat), e = n.toNat → Served s [.read s.pc n] →
    ∃ t, exec .ld_HL_SPe s = .next t ∧
      (t.pair .HL).toNat = (s.sp.toNat + (if e < 128 then e else e + 0xFF00)) % 65536 ∧
      (t.flag .Hf = true ↔ s.sp.toNat % 16 + e % 16 > 0x0F) ∧ (t.flag .Cf = true ↔ s.sp.toNat % 256 + e > 0xFF) ∧
      t.pc = s.pc + 1 ∧ OnlyWrites { regs := [.H, .L], flags := [.Hf, .Cf] } s t ∧ Charged 2 12 s t ∧
      Accessed [.read s.pc n] s t

/-- The hardware adder of `LD HL,SP+e` equals it: one unsigned addition of the low bytes gives `L` and both flags, and the
high byte is corrected by the carry and by the sign of `e` (R161, the spec's own derivation). -/
def Obligations.SpOffsetEqualsTheByteAdder : Prop :=
  ∀ (sp : Word) (e : Byte) (f : Flags),
    let sum := sp.toNat % 256 + e.toNat
    (loByte (spOffsetCore sp e f).1).toNat = sum % 256 ∧
    ((spOffsetCore sp e f).2.c = true ↔ sum ≥ 256) ∧
    ((spOffsetCore sp e f).2.h = true ↔ sp.toNat % 16 + e.toNat % 16 ≥ 16) ∧
    ((hiByte (spOffsetCore sp e f).1).toNat : Int) =
      ((sp.toNat / 256 : Nat) + ((spOffsetCore sp e f).2.c.toNat : Int) - (if e.toNat ≥ 128 then 1 else 0)) % 256

/-! ### The stack -/

/-- `PUSH`: the high half at `SP - 1`, then the low half at `SP - 2`; for `AF` the low half is `F` with a zero low nibble (R166,
R167; D15, log 19). -/
def Obligations.PushWritesHighThenLow : Prop :=
  ∀ (i : Instr) (hi lo : Byte) (s : State),
    (∃ p, i.form = .push p ∧ hi = s.reg p.hi ∧ lo = s.reg p.lo) ∨
      (i.form = .pushAF ∧ hi = s.reg .A ∧ lo = s.readF) →
    Served s [.write (s.sp - 1) hi, .write (s.sp - 2) lo] →
    ∃ t, exec i s = .next t ∧ (s.isOpen (s.sp - 1) = false → t.byteAt (s.sp - 1) = hi) ∧
      (s.isOpen (s.sp - 2) = false → t.byteAt (s.sp - 2) = lo) ∧ t.sp = s.sp - 2 ∧ t.pc = s.pc ∧
      OnlyWrites { sp := true, mem := [s.sp - 1, s.sp - 2] } s t ∧ Charged 1 16 s t ∧
      Accessed [.write (s.sp - 1) hi, .write (s.sp - 2) lo] s t

/-- `POP`: the low half from `SP`, the high half from `SP + 1`; `POP AF` keeps the top nibble of the byte popped to `F` (R168,
R169; D12, C2, log 4, log 23). -/
def Obligations.PopReadsLowThenHigh : Prop :=
  (∀ (i : Instr) (p : Pair) (s : State) (lo hi : Byte), i.form = .pop p →
    Served s [.read s.sp lo, .read (s.sp + 1) hi] →
    ∃ t, exec i s = .next t ∧ t.reg p.lo = lo ∧ t.reg p.hi = hi ∧ t.sp = s.sp + 2 ∧ t.pc = s.pc ∧
      OnlyWrites { regs := [p.hi, p.lo], sp := true } s t ∧ Charged 1 12 s t ∧
      Accessed [.read s.sp lo, .read (s.sp + 1) hi] s t) ∧
  ∀ (s : State) (lo hi : Byte), Served s [.read s.sp lo, .read (s.sp + 1) hi] →
    ∃ t, exec .pop_AF s = .next t ∧ t.readF = lo &&& 0xF0 ∧ t.reg .A = hi ∧ t.sp = s.sp + 2 ∧ t.pc = s.pc ∧
      OnlyWrites { regs := [.A], flags := [.Z, .N, .Hf, .Cf], sp := true } s t ∧ Charged 1 12 s t ∧
      Accessed [.read s.sp lo, .read (s.sp + 1) hi] s t

/-- A PUSH followed by a POP of the same pair restores every register, the flags and `SP`, leaves the pushed bytes below `SP`,
and adds 2 machine cycles and 28 cpu cycles (R170), over the default memory and unbounded counters. -/
def Obligations.PushThenPopRestores : Prop :=
  ∀ (i j : Instr) (hi lo : Byte) (s : State),
    (∃ p, i.form = .push p ∧ j.form = .pop p ∧ hi = s.reg p.hi ∧ lo = s.reg p.lo) ∨
      (i.form = .pushAF ∧ j.form = .popAF ∧ hi = s.reg .A ∧ lo = s.readF) →
    s.plainMemory = true → s.params.clockBits = none →
    ∃ t u, exec i s = .next t ∧ exec j t = .next u ∧ (∀ r, u.reg r = s.reg r) ∧ u.readF = s.readF ∧ u.sp = s.sp ∧
      u.byteAt (s.sp - 1) = hi ∧ u.byteAt (s.sp - 2) = lo ∧
      OnlyWrites { mem := [s.sp - 1, s.sp - 2] } s u ∧ u.pc = s.pc ∧
      u.m = 1 ∧ u.t = 12 ∧ u.clockM = s.clockM + 2 ∧ u.clockT = s.clockT + 28
end

