-- ==== Sys2Proof/Laws/Bits.lean ====
section
/-! SUPPORT. The bit-field helpers as arithmetic on natural numbers, the pair view's round trip, and the flag byte. -/

namespace Sys2Proof.Machine

theorem joinBytes_toNat (hi lo : Byte) : (joinBytes hi lo).toNat = 256 * hi.toNat + lo.toNat := by
  simp only [joinBytes, BitVec.toNat_append]
  rw [← Nat.shiftLeft_add_eq_or_of_lt lo.isLt, Nat.shiftLeft_eq]
  omega

theorem hiByte_toNat (v : Word) : (hiByte v).toNat = v.toNat / 256 := by
  have := v.isLt
  simp only [hiByte, BitVec.extractLsb'_toNat, Nat.shiftRight_eq_div_pow]
  omega

theorem loByte_toNat (v : Word) : (loByte v).toNat = v.toNat % 256 := by
  simp [loByte, BitVec.extractLsb'_toNat]

@[simp] theorem joinBytes_hiByte_loByte (v : Word) : joinBytes (hiByte v) (loByte v) = v := by
  apply BitVec.eq_of_toNat_eq
  rw [joinBytes_toNat, hiByte_toNat, loByte_toNat]
  omega

@[simp] theorem hiByte_joinBytes (hi lo : Byte) : hiByte (joinBytes hi lo) = hi := by
  have := lo.isLt
  apply BitVec.eq_of_toNat_eq
  rw [hiByte_toNat, joinBytes_toNat]
  omega

@[simp] theorem loByte_joinBytes (hi lo : Byte) : loByte (joinBytes hi lo) = lo := by
  have := lo.isLt
  apply BitVec.eq_of_toNat_eq
  rw [loByte_toNat, joinBytes_toNat]
  omega

theorem lowNibble_eq (v : Byte) : lowNibble v = v.toNat % 16 := by
  simpa [lowNibble] using Nat.and_two_pow_sub_one_eq_mod v.toNat 4

theorem and_000F_toNat (v : Word) : (v &&& 0x000F#16).toNat = v.toNat % 16 := by
  simpa using Nat.and_two_pow_sub_one_eq_mod v.toNat 4

theorem and_00FF_toNat (v : Word) : (v &&& 0x00FF#16).toNat = v.toNat % 256 := by
  simpa using Nat.and_two_pow_sub_one_eq_mod v.toNat 8

theorem and_0FFF_toNat (v : Word) : (v &&& 0x0FFF#16).toNat = v.toNat % 4096 := by
  simpa using Nat.and_two_pow_sub_one_eq_mod v.toNat 12

theorem signExtend16_toNat (e : Byte) :
    (signExtend16 e).toNat = if e.toNat < 128 then e.toNat else e.toNat + 0xFF00 := by
  revert e
  decide

theorem ofInt8_toNat (d : Int) : ((BitVec.ofInt 8 d).toNat : Int) = d % 256 := by
  rw [BitVec.toNat_ofInt]
  omega

/-! ### The flag byte -/

/-- Only the top nibble of a byte survives a write of `F` (R17). -/
theorem Flags.toByte_ofByte (v : Byte) : (Flags.ofByte v).toByte = v &&& 0xF0 := by
  revert v
  decide

/-- The stored flags survive a reading and a writing of the byte. -/
@[simp] theorem Flags.ofByte_toByte (f : Flags) : Flags.ofByte f.toByte = f := by
  obtain ⟨z, n, h, c⟩ := f
  revert z n h c
  decide

theorem Flags.get_set (f : Flags) (a b : Flag) (v : Bool) : (f.set a v).get b = if b = a then v else f.get b := by
  cases a <;> cases b <;> rfl

end Sys2Proof.Machine
end

