-- ==== Sys2Proof/Laws/Memory.lean ====
section
/-! SUPPORT. The laws of memory: read after write, other addresses untouched, the canonical form kept. -/

namespace Sys2Proof.Machine

theorem Memory.read_clear (m : Memory) (a b : Nat) :
    (m.clear a).read b = if b = a then Memory.unlisted else m.read b := by
  induction m with
  | nil => simp [Memory.clear, Memory.read]
  | cons e rest ih =>
    obtain ⟨c, v⟩ := e
    by_cases hca : c = a
    · simp only [Memory.clear, hca, if_true, ih, Memory.read]
      by_cases hba : b = a
      · simp [hba]
      · simp [hba, Ne.symm hba]
    · simp only [Memory.clear, hca, if_false, Memory.read, ih]
      by_cases hba : b = a
      · simp [hba, hca]
      · simp [hba]

theorem Memory.read_place_ne (m : Memory) {a b : Nat} (v : Byte) (h : b ≠ a) :
    (m.place a v).read b = m.read b := by
  induction m with
  | nil => simp [Memory.place, Memory.read, Ne.symm h]
  | cons e rest ih =>
    obtain ⟨c, w⟩ := e
    by_cases hac : a < c
    · simp [Memory.place, Memory.read, hac, Ne.symm h]
    · simp [Memory.place, Memory.read, hac, ih]

/-- An entry placed where the address was not listed is the one read. -/
theorem Memory.read_place_clear (m : Memory) (a : Nat) (v : Byte) : ((m.clear a).place a v).read a = v := by
  induction m with
  | nil => simp [Memory.clear, Memory.place, Memory.read]
  | cons e rest ih =>
    obtain ⟨c, w⟩ := e
    by_cases hca : c = a
    · simpa [Memory.clear, hca] using ih
    · by_cases hac : a < c
      · simp [Memory.clear, Memory.place, Memory.read, hca, hac]
      · simp [Memory.clear, Memory.place, Memory.read, hca, hac, ih]

/-- The one law of reading after writing, in any memory, canonical or not. -/
theorem Memory.read_write (m : Memory) (a b : Nat) (v : Byte) :
    (m.write a v).read b = if b = a then v else m.read b := by
  unfold Memory.write
  by_cases hv : v = Memory.unlisted
  · simp only [hv, if_true, Memory.read_clear]
  · by_cases hba : b = a
    · simp only [hv, if_false, hba, if_true, Memory.read_place_clear]
    · simp only [hv, if_false, hba, Memory.read_place_ne _ _ hba, Memory.read_clear]

theorem Memory.wfFrom_mono {lo lo' : Nat} {m : Memory} (h : Memory.wfFrom lo' m = true) (hl : lo ≤ lo') :
    Memory.wfFrom lo m = true := by
  cases m with
  | nil => rfl
  | cons e rest =>
    obtain ⟨a, v⟩ := e
    simp only [Memory.wfFrom, Bool.and_eq_true, decide_eq_true_eq] at h ⊢
    exact ⟨⟨⟨le_trans hl h.1.1.1, h.1.1.2⟩, h.1.2⟩, h.2⟩

theorem Memory.wfFrom_clear {lo : Nat} {m : Memory} (a : Nat) (h : Memory.wfFrom lo m = true) :
    Memory.wfFrom lo (m.clear a) = true := by
  induction m generalizing lo with
  | nil => rfl
  | cons e rest ih =>
    obtain ⟨c, v⟩ := e
    simp only [Memory.wfFrom, Bool.and_eq_true, decide_eq_true_eq] at h
    by_cases hca : c = a
    · simp only [Memory.clear, hca, if_true]
      exact ih (Memory.wfFrom_mono h.2 (by omega))
    · simp only [Memory.clear, hca, if_false, Memory.wfFrom, Bool.and_eq_true, decide_eq_true_eq]
      exact ⟨h.1, ih h.2⟩

theorem Memory.wfFrom_place_clear {lo : Nat} {m : Memory} {a : Nat} {v : Byte} (h : Memory.wfFrom lo m = true)
    (hlo : lo ≤ a) (ha : a < 65536) (hv : v ≠ Memory.unlisted) :
    Memory.wfFrom lo ((m.clear a).place a v) = true := by
  induction m generalizing lo with
  | nil => simp [Memory.clear, Memory.place, Memory.wfFrom, hlo, ha, hv]
  | cons e rest ih =>
    obtain ⟨c, w⟩ := e
    simp only [Memory.wfFrom, Bool.and_eq_true, decide_eq_true_eq] at h
    by_cases hca : c = a
    · simp only [Memory.clear, hca, if_true]
      exact ih (Memory.wfFrom_mono h.2 (by omega)) hlo
    · by_cases hac : a < c
      · have hr := Memory.wfFrom_clear a h.2
        simp only [Memory.clear, hca, if_false, Memory.place, hac, if_true, Memory.wfFrom, Bool.and_eq_true,
          decide_eq_true_eq, bne_iff_ne, ne_eq] at h ⊢
        exact ⟨⟨⟨hlo, ha⟩, hv⟩, ⟨⟨hac, h.1.1.2⟩, h.1.2⟩, hr⟩
      · simp only [Memory.clear, hca, if_false, Memory.place, hac, Memory.wfFrom, Bool.and_eq_true,
          decide_eq_true_eq]
        exact ⟨h.1, ih h.2 (by omega)⟩

/-- Every write keeps the canonical form. -/
theorem Memory.wf_write {m : Memory} {a : Nat} (v : Byte) (h : Memory.wf m = true) (ha : a < 65536) :
    Memory.wf (m.write a v) = true := by
  unfold Memory.write Memory.wf at *
  split
  · exact Memory.wfFrom_clear a h
  · exact Memory.wfFrom_place_clear h (Nat.zero_le a) ha (by assumption)

theorem Memory.wf_nil : Memory.wf ([] : Memory) = true := rfl

/-- In canonical form no entry stands below the bound the form starts from. -/
theorem Memory.read_below {lo : Nat} {m : Memory} (h : Memory.wfFrom lo m = true) {a : Nat} (ha : a < lo) :
    m.read a = Memory.unlisted := by
  induction m generalizing lo with
  | nil => rfl
  | cons e rest ih =>
    obtain ⟨c, v⟩ := e
    simp only [Memory.wfFrom, Bool.and_eq_true, decide_eq_true_eq] at h
    have hca : c ≠ a := by omega
    simp only [Memory.read, hca, if_false]
    exact ih h.2 (by omega)

/-- What byte a state's address holds after one byte is put. -/
@[simp] theorem State.byteAt_putByte (s : State) (a b : Word) (v : Byte) :
    (s.putByte a v).byteAt b = if b = a then v else s.byteAt b := by
  simp only [State.byteAt, State.putByte, Memory.read_write, BitVec.toNat_inj]

/-- What RAM holds after one byte is stored: the byte, unless the environment answered the access. -/
@[simp] theorem State.byteAt_storeByte (s : State) (a b : Word) (v : Byte) :
    (s.storeByte a v).byteAt b = if b = a ∧ s.answer a = none then v else s.byteAt b := by
  unfold State.storeByte State.byteAt
  cases h : s.answer a <;> simp [Memory.read_write, BitVec.toNat_inj]

/-- Outside the open ranges the environment says nothing. -/
theorem State.answer_of_ram {s : State} {a : Word} (h : s.isOpen a = false) : s.answer a = none := by
  simp [State.answer, h]

/-- Outside the open ranges a read answers the content. -/
theorem State.readValue_of_ram {s : State} {a : Word} (h : s.isOpen a = false) : s.readValue a = s.byteAt a := by
  simp [State.readValue, State.answer_of_ram h]

@[simp] theorem State.takeAnswer_of_ram {s : State} {a : Word} (h : s.isOpen a = false) : s.takeAnswer a = s := by
  simp [State.takeAnswer, h]

theorem State.wf_putByte {s : State} (a : Word) (v : Byte) (h : Memory.wf s.mem = true) :
    Memory.wf (s.putByte a v).mem = true :=
  Memory.wf_write v h a.isLt

theorem State.wf_storeByte {s : State} (a : Word) (v : Byte) (h : Memory.wf s.mem = true) :
    Memory.wf (s.storeByte a v).mem = true := by
  unfold State.storeByte
  simp only
  split
  · exact h
  · exact Memory.wf_write v h a.isLt

end Sys2Proof.Machine
end

