-- ==== Sys2Proof/Laws/State.lean ====
section
/-! SUPPORT. One lemma per field and per observer for each update of the state, so that no proof unfolds a record update. -/

namespace Sys2Proof.Machine

variable (s : State)

/-! ### `setFlags` -/

@[simp] theorem State.setFlags_regs (f : Flags) : (s.setFlags f).regs = s.regs := rfl
@[simp] theorem State.setFlags_flags (f : Flags) : (s.setFlags f).flags = f := rfl
@[simp] theorem State.setFlags_pc (f : Flags) : (s.setFlags f).pc = s.pc := rfl
@[simp] theorem State.setFlags_sp (f : Flags) : (s.setFlags f).sp = s.sp := rfl
@[simp] theorem State.setFlags_m (f : Flags) : (s.setFlags f).m = s.m := rfl
@[simp] theorem State.setFlags_t (f : Flags) : (s.setFlags f).t = s.t := rfl
@[simp] theorem State.setFlags_clockM (f : Flags) : (s.setFlags f).clockM = s.clockM := rfl
@[simp] theorem State.setFlags_clockT (f : Flags) : (s.setFlags f).clockT = s.clockT := rfl
@[simp] theorem State.setFlags_halted (f : Flags) : (s.setFlags f).halted = s.halted := rfl
@[simp] theorem State.setFlags_stopped (f : Flags) : (s.setFlags f).stopped = s.stopped := rfl
@[simp] theorem State.setFlags_mem (f : Flags) : (s.setFlags f).mem = s.mem := rfl
@[simp] theorem State.setFlags_bus (f : Flags) : (s.setFlags f).bus = s.bus := rfl
@[simp] theorem State.setFlags_schedule (f : Flags) : (s.setFlags f).schedule = s.schedule := rfl
@[simp] theorem State.setFlags_params (f : Flags) : (s.setFlags f).params = s.params := rfl
@[simp] theorem State.setFlags_answers (f : Flags) : (s.setFlags f).answers = s.answers := rfl
@[simp] theorem State.setFlags_isOpen (f : Flags) (i : Word) : (s.setFlags f).isOpen i = s.isOpen i := rfl
@[simp] theorem State.setFlags_answer (f : Flags) (i : Word) : (s.setFlags f).answer i = s.answer i := rfl
@[simp] theorem State.setFlags_readValue (f : Flags) (i : Word) : (s.setFlags f).readValue i = s.readValue i := rfl
@[simp] theorem State.setFlags_reg (f : Flags) (q : Reg) : (s.setFlags f).reg q = s.reg q := rfl
@[simp] theorem State.setFlags_pair (f : Flags) (p : Pair) : (s.setFlags f).pair p = s.pair p := rfl
@[simp] theorem State.setFlags_byteAt (f : Flags) (i : Word) : (s.setFlags f).byteAt i = s.byteAt i := rfl
@[simp] theorem State.setFlags_accessFails (f : Flags) (k : AccessKind) (i : Word) : (s.setFlags f).accessFails k i = s.accessFails k i := rfl

/-! ### `setPc` -/

@[simp] theorem State.setPc_regs (v : Word) : (s.setPc v).regs = s.regs := rfl
@[simp] theorem State.setPc_flags (v : Word) : (s.setPc v).flags = s.flags := rfl
@[simp] theorem State.setPc_pc (v : Word) : (s.setPc v).pc = v := rfl
@[simp] theorem State.setPc_sp (v : Word) : (s.setPc v).sp = s.sp := rfl
@[simp] theorem State.setPc_m (v : Word) : (s.setPc v).m = s.m := rfl
@[simp] theorem State.setPc_t (v : Word) : (s.setPc v).t = s.t := rfl
@[simp] theorem State.setPc_clockM (v : Word) : (s.setPc v).clockM = s.clockM := rfl
@[simp] theorem State.setPc_clockT (v : Word) : (s.setPc v).clockT = s.clockT := rfl
@[simp] theorem State.setPc_halted (v : Word) : (s.setPc v).halted = s.halted := rfl
@[simp] theorem State.setPc_stopped (v : Word) : (s.setPc v).stopped = s.stopped := rfl
@[simp] theorem State.setPc_mem (v : Word) : (s.setPc v).mem = s.mem := rfl
@[simp] theorem State.setPc_bus (v : Word) : (s.setPc v).bus = s.bus := rfl
@[simp] theorem State.setPc_schedule (v : Word) : (s.setPc v).schedule = s.schedule := rfl
@[simp] theorem State.setPc_params (v : Word) : (s.setPc v).params = s.params := rfl
@[simp] theorem State.setPc_answers (v : Word) : (s.setPc v).answers = s.answers := rfl
@[simp] theorem State.setPc_isOpen (v : Word) (i : Word) : (s.setPc v).isOpen i = s.isOpen i := rfl
@[simp] theorem State.setPc_answer (v : Word) (i : Word) : (s.setPc v).answer i = s.answer i := rfl
@[simp] theorem State.setPc_readValue (v : Word) (i : Word) : (s.setPc v).readValue i = s.readValue i := rfl
@[simp] theorem State.setPc_reg (v : Word) (q : Reg) : (s.setPc v).reg q = s.reg q := rfl
@[simp] theorem State.setPc_pair (v : Word) (p : Pair) : (s.setPc v).pair p = s.pair p := rfl
@[simp] theorem State.setPc_flag (v : Word) (g : Flag) : (s.setPc v).flag g = s.flag g := rfl
@[simp] theorem State.setPc_byteAt (v : Word) (i : Word) : (s.setPc v).byteAt i = s.byteAt i := rfl
@[simp] theorem State.setPc_accessFails (v : Word) (k : AccessKind) (i : Word) : (s.setPc v).accessFails k i = s.accessFails k i := rfl
@[simp] theorem State.setPc_readF (v : Word) : (s.setPc v).readF = s.readF  := rfl

/-! ### `setSp` -/

@[simp] theorem State.setSp_regs (v : Word) : (s.setSp v).regs = s.regs := rfl
@[simp] theorem State.setSp_flags (v : Word) : (s.setSp v).flags = s.flags := rfl
@[simp] theorem State.setSp_pc (v : Word) : (s.setSp v).pc = s.pc := rfl
@[simp] theorem State.setSp_sp (v : Word) : (s.setSp v).sp = v := rfl
@[simp] theorem State.setSp_m (v : Word) : (s.setSp v).m = s.m := rfl
@[simp] theorem State.setSp_t (v : Word) : (s.setSp v).t = s.t := rfl
@[simp] theorem State.setSp_clockM (v : Word) : (s.setSp v).clockM = s.clockM := rfl
@[simp] theorem State.setSp_clockT (v : Word) : (s.setSp v).clockT = s.clockT := rfl
@[simp] theorem State.setSp_halted (v : Word) : (s.setSp v).halted = s.halted := rfl
@[simp] theorem State.setSp_stopped (v : Word) : (s.setSp v).stopped = s.stopped := rfl
@[simp] theorem State.setSp_mem (v : Word) : (s.setSp v).mem = s.mem := rfl
@[simp] theorem State.setSp_bus (v : Word) : (s.setSp v).bus = s.bus := rfl
@[simp] theorem State.setSp_schedule (v : Word) : (s.setSp v).schedule = s.schedule := rfl
@[simp] theorem State.setSp_params (v : Word) : (s.setSp v).params = s.params := rfl
@[simp] theorem State.setSp_answers (v : Word) : (s.setSp v).answers = s.answers := rfl
@[simp] theorem State.setSp_isOpen (v : Word) (i : Word) : (s.setSp v).isOpen i = s.isOpen i := rfl
@[simp] theorem State.setSp_answer (v : Word) (i : Word) : (s.setSp v).answer i = s.answer i := rfl
@[simp] theorem State.setSp_readValue (v : Word) (i : Word) : (s.setSp v).readValue i = s.readValue i := rfl
@[simp] theorem State.setSp_reg (v : Word) (q : Reg) : (s.setSp v).reg q = s.reg q := rfl
@[simp] theorem State.setSp_pair (v : Word) (p : Pair) : (s.setSp v).pair p = s.pair p := rfl
@[simp] theorem State.setSp_flag (v : Word) (g : Flag) : (s.setSp v).flag g = s.flag g := rfl
@[simp] theorem State.setSp_byteAt (v : Word) (i : Word) : (s.setSp v).byteAt i = s.byteAt i := rfl
@[simp] theorem State.setSp_accessFails (v : Word) (k : AccessKind) (i : Word) : (s.setSp v).accessFails k i = s.accessFails k i := rfl
@[simp] theorem State.setSp_readF (v : Word) : (s.setSp v).readF = s.readF  := rfl

/-! ### `setHalted` -/

@[simp] theorem State.setHalted_regs (b : Bool) : (s.setHalted b).regs = s.regs := rfl
@[simp] theorem State.setHalted_flags (b : Bool) : (s.setHalted b).flags = s.flags := rfl
@[simp] theorem State.setHalted_pc (b : Bool) : (s.setHalted b).pc = s.pc := rfl
@[simp] theorem State.setHalted_sp (b : Bool) : (s.setHalted b).sp = s.sp := rfl
@[simp] theorem State.setHalted_m (b : Bool) : (s.setHalted b).m = s.m := rfl
@[simp] theorem State.setHalted_t (b : Bool) : (s.setHalted b).t = s.t := rfl
@[simp] theorem State.setHalted_clockM (b : Bool) : (s.setHalted b).clockM = s.clockM := rfl
@[simp] theorem State.setHalted_clockT (b : Bool) : (s.setHalted b).clockT = s.clockT := rfl
@[simp] theorem State.setHalted_halted (b : Bool) : (s.setHalted b).halted = b := rfl
@[simp] theorem State.setHalted_stopped (b : Bool) : (s.setHalted b).stopped = s.stopped := rfl
@[simp] theorem State.setHalted_mem (b : Bool) : (s.setHalted b).mem = s.mem := rfl
@[simp] theorem State.setHalted_bus (b : Bool) : (s.setHalted b).bus = s.bus := rfl
@[simp] theorem State.setHalted_schedule (b : Bool) : (s.setHalted b).schedule = s.schedule := rfl
@[simp] theorem State.setHalted_params (b : Bool) : (s.setHalted b).params = s.params := rfl
@[simp] theorem State.setHalted_answers (b : Bool) : (s.setHalted b).answers = s.answers := rfl
@[simp] theorem State.setHalted_isOpen (b : Bool) (i : Word) : (s.setHalted b).isOpen i = s.isOpen i := rfl
@[simp] theorem State.setHalted_answer (b : Bool) (i : Word) : (s.setHalted b).answer i = s.answer i := rfl
@[simp] theorem State.setHalted_readValue (b : Bool) (i : Word) : (s.setHalted b).readValue i = s.readValue i := rfl
@[simp] theorem State.setHalted_reg (b : Bool) (q : Reg) : (s.setHalted b).reg q = s.reg q := rfl
@[simp] theorem State.setHalted_pair (b : Bool) (p : Pair) : (s.setHalted b).pair p = s.pair p := rfl
@[simp] theorem State.setHalted_flag (b : Bool) (g : Flag) : (s.setHalted b).flag g = s.flag g := rfl
@[simp] theorem State.setHalted_byteAt (b : Bool) (i : Word) : (s.setHalted b).byteAt i = s.byteAt i := rfl
@[simp] theorem State.setHalted_accessFails (b : Bool) (k : AccessKind) (i : Word) : (s.setHalted b).accessFails k i = s.accessFails k i := rfl
@[simp] theorem State.setHalted_readF (b : Bool) : (s.setHalted b).readF = s.readF  := rfl

/-! ### `setStopped` -/

@[simp] theorem State.setStopped_regs (b : Bool) : (s.setStopped b).regs = s.regs := rfl
@[simp] theorem State.setStopped_flags (b : Bool) : (s.setStopped b).flags = s.flags := rfl
@[simp] theorem State.setStopped_pc (b : Bool) : (s.setStopped b).pc = s.pc := rfl
@[simp] theorem State.setStopped_sp (b : Bool) : (s.setStopped b).sp = s.sp := rfl
@[simp] theorem State.setStopped_m (b : Bool) : (s.setStopped b).m = s.m := rfl
@[simp] theorem State.setStopped_t (b : Bool) : (s.setStopped b).t = s.t := rfl
@[simp] theorem State.setStopped_clockM (b : Bool) : (s.setStopped b).clockM = s.clockM := rfl
@[simp] theorem State.setStopped_clockT (b : Bool) : (s.setStopped b).clockT = s.clockT := rfl
@[simp] theorem State.setStopped_halted (b : Bool) : (s.setStopped b).halted = s.halted := rfl
@[simp] theorem State.setStopped_stopped (b : Bool) : (s.setStopped b).stopped = b := rfl
@[simp] theorem State.setStopped_mem (b : Bool) : (s.setStopped b).mem = s.mem := rfl
@[simp] theorem State.setStopped_bus (b : Bool) : (s.setStopped b).bus = s.bus := rfl
@[simp] theorem State.setStopped_schedule (b : Bool) : (s.setStopped b).schedule = s.schedule := rfl
@[simp] theorem State.setStopped_params (b : Bool) : (s.setStopped b).params = s.params := rfl
@[simp] theorem State.setStopped_answers (b : Bool) : (s.setStopped b).answers = s.answers := rfl
@[simp] theorem State.setStopped_isOpen (b : Bool) (i : Word) : (s.setStopped b).isOpen i = s.isOpen i := rfl
@[simp] theorem State.setStopped_answer (b : Bool) (i : Word) : (s.setStopped b).answer i = s.answer i := rfl
@[simp] theorem State.setStopped_readValue (b : Bool) (i : Word) : (s.setStopped b).readValue i = s.readValue i := rfl
@[simp] theorem State.setStopped_reg (b : Bool) (q : Reg) : (s.setStopped b).reg q = s.reg q := rfl
@[simp] theorem State.setStopped_pair (b : Bool) (p : Pair) : (s.setStopped b).pair p = s.pair p := rfl
@[simp] theorem State.setStopped_flag (b : Bool) (g : Flag) : (s.setStopped b).flag g = s.flag g := rfl
@[simp] theorem State.setStopped_byteAt (b : Bool) (i : Word) : (s.setStopped b).byteAt i = s.byteAt i := rfl
@[simp] theorem State.setStopped_accessFails (b : Bool) (k : AccessKind) (i : Word) : (s.setStopped b).accessFails k i = s.accessFails k i := rfl
@[simp] theorem State.setStopped_readF (b : Bool) : (s.setStopped b).readF = s.readF  := rfl

/-! ### `noteAccess` -/

@[simp] theorem State.noteAccess_regs (x : Access) : (s.noteAccess x).regs = s.regs := rfl
@[simp] theorem State.noteAccess_flags (x : Access) : (s.noteAccess x).flags = s.flags := rfl
@[simp] theorem State.noteAccess_pc (x : Access) : (s.noteAccess x).pc = s.pc := rfl
@[simp] theorem State.noteAccess_sp (x : Access) : (s.noteAccess x).sp = s.sp := rfl
@[simp] theorem State.noteAccess_m (x : Access) : (s.noteAccess x).m = s.m := rfl
@[simp] theorem State.noteAccess_t (x : Access) : (s.noteAccess x).t = s.t := rfl
@[simp] theorem State.noteAccess_clockM (x : Access) : (s.noteAccess x).clockM = s.clockM := rfl
@[simp] theorem State.noteAccess_clockT (x : Access) : (s.noteAccess x).clockT = s.clockT := rfl
@[simp] theorem State.noteAccess_halted (x : Access) : (s.noteAccess x).halted = s.halted := rfl
@[simp] theorem State.noteAccess_stopped (x : Access) : (s.noteAccess x).stopped = s.stopped := rfl
@[simp] theorem State.noteAccess_mem (x : Access) : (s.noteAccess x).mem = s.mem := rfl
@[simp] theorem State.noteAccess_bus (x : Access) : (s.noteAccess x).bus = s.bus ++ [x] := rfl
@[simp] theorem State.noteAccess_schedule (x : Access) : (s.noteAccess x).schedule = s.schedule := rfl
@[simp] theorem State.noteAccess_params (x : Access) : (s.noteAccess x).params = s.params := rfl
@[simp] theorem State.noteAccess_answers (x : Access) : (s.noteAccess x).answers = s.answers := rfl
@[simp] theorem State.noteAccess_isOpen (x : Access) (i : Word) : (s.noteAccess x).isOpen i = s.isOpen i := rfl
@[simp] theorem State.noteAccess_answer (x : Access) (i : Word) : (s.noteAccess x).answer i = s.answer i := rfl
@[simp] theorem State.noteAccess_readValue (x : Access) (i : Word) : (s.noteAccess x).readValue i = s.readValue i := rfl
@[simp] theorem State.noteAccess_reg (x : Access) (q : Reg) : (s.noteAccess x).reg q = s.reg q := rfl
@[simp] theorem State.noteAccess_pair (x : Access) (p : Pair) : (s.noteAccess x).pair p = s.pair p := rfl
@[simp] theorem State.noteAccess_flag (x : Access) (g : Flag) : (s.noteAccess x).flag g = s.flag g := rfl
@[simp] theorem State.noteAccess_byteAt (x : Access) (i : Word) : (s.noteAccess x).byteAt i = s.byteAt i := rfl
@[simp] theorem State.noteAccess_accessFails (x : Access) (k : AccessKind) (i : Word) : (s.noteAccess x).accessFails k i = s.accessFails k i := rfl
@[simp] theorem State.noteAccess_readF (x : Access) : (s.noteAccess x).readF = s.readF  := rfl

/-! ### `putByte` -/

@[simp] theorem State.putByte_regs (a : Word) (v : Byte) : (s.putByte a v).regs = s.regs := rfl
@[simp] theorem State.putByte_flags (a : Word) (v : Byte) : (s.putByte a v).flags = s.flags := rfl
@[simp] theorem State.putByte_pc (a : Word) (v : Byte) : (s.putByte a v).pc = s.pc := rfl
@[simp] theorem State.putByte_sp (a : Word) (v : Byte) : (s.putByte a v).sp = s.sp := rfl
@[simp] theorem State.putByte_m (a : Word) (v : Byte) : (s.putByte a v).m = s.m := rfl
@[simp] theorem State.putByte_t (a : Word) (v : Byte) : (s.putByte a v).t = s.t := rfl
@[simp] theorem State.putByte_clockM (a : Word) (v : Byte) : (s.putByte a v).clockM = s.clockM := rfl
@[simp] theorem State.putByte_clockT (a : Word) (v : Byte) : (s.putByte a v).clockT = s.clockT := rfl
@[simp] theorem State.putByte_halted (a : Word) (v : Byte) : (s.putByte a v).halted = s.halted := rfl
@[simp] theorem State.putByte_stopped (a : Word) (v : Byte) : (s.putByte a v).stopped = s.stopped := rfl
@[simp] theorem State.putByte_mem (a : Word) (v : Byte) : (s.putByte a v).mem = s.mem.write a.toNat v := rfl
@[simp] theorem State.putByte_bus (a : Word) (v : Byte) : (s.putByte a v).bus = s.bus := rfl
@[simp] theorem State.putByte_schedule (a : Word) (v : Byte) : (s.putByte a v).schedule = s.schedule := rfl
@[simp] theorem State.putByte_params (a : Word) (v : Byte) : (s.putByte a v).params = s.params := rfl
@[simp] theorem State.putByte_answers (a : Word) (v : Byte) : (s.putByte a v).answers = s.answers := rfl
@[simp] theorem State.putByte_isOpen (a : Word) (v : Byte) (i : Word) : (s.putByte a v).isOpen i = s.isOpen i := rfl
@[simp] theorem State.putByte_answer (a : Word) (v : Byte) (i : Word) : (s.putByte a v).answer i = s.answer i := rfl
@[simp] theorem State.putByte_reg (a : Word) (v : Byte) (q : Reg) : (s.putByte a v).reg q = s.reg q := rfl
@[simp] theorem State.putByte_pair (a : Word) (v : Byte) (p : Pair) : (s.putByte a v).pair p = s.pair p := rfl
@[simp] theorem State.putByte_flag (a : Word) (v : Byte) (g : Flag) : (s.putByte a v).flag g = s.flag g := rfl
@[simp] theorem State.putByte_accessFails (a : Word) (v : Byte) (k : AccessKind) (i : Word) : (s.putByte a v).accessFails k i = s.accessFails k i := rfl
@[simp] theorem State.putByte_readF (a : Word) (v : Byte) : (s.putByte a v).readF = s.readF  := rfl

/-! ### `setReg` -/

@[simp] theorem State.setReg_regs (r : Reg) (v : Byte) : (s.setReg r v).regs = s.regs.set r v := rfl
@[simp] theorem State.setReg_flags (r : Reg) (v : Byte) : (s.setReg r v).flags = s.flags := rfl
@[simp] theorem State.setReg_pc (r : Reg) (v : Byte) : (s.setReg r v).pc = s.pc := rfl
@[simp] theorem State.setReg_sp (r : Reg) (v : Byte) : (s.setReg r v).sp = s.sp := rfl
@[simp] theorem State.setReg_m (r : Reg) (v : Byte) : (s.setReg r v).m = s.m := rfl
@[simp] theorem State.setReg_t (r : Reg) (v : Byte) : (s.setReg r v).t = s.t := rfl
@[simp] theorem State.setReg_clockM (r : Reg) (v : Byte) : (s.setReg r v).clockM = s.clockM := rfl
@[simp] theorem State.setReg_clockT (r : Reg) (v : Byte) : (s.setReg r v).clockT = s.clockT := rfl
@[simp] theorem State.setReg_halted (r : Reg) (v : Byte) : (s.setReg r v).halted = s.halted := rfl
@[simp] theorem State.setReg_stopped (r : Reg) (v : Byte) : (s.setReg r v).stopped = s.stopped := rfl
@[simp] theorem State.setReg_mem (r : Reg) (v : Byte) : (s.setReg r v).mem = s.mem := rfl
@[simp] theorem State.setReg_bus (r : Reg) (v : Byte) : (s.setReg r v).bus = s.bus := rfl
@[simp] theorem State.setReg_schedule (r : Reg) (v : Byte) : (s.setReg r v).schedule = s.schedule := rfl
@[simp] theorem State.setReg_params (r : Reg) (v : Byte) : (s.setReg r v).params = s.params := rfl
@[simp] theorem State.setReg_answers (r : Reg) (v : Byte) : (s.setReg r v).answers = s.answers := rfl
@[simp] theorem State.setReg_isOpen (r : Reg) (v : Byte) (i : Word) : (s.setReg r v).isOpen i = s.isOpen i := rfl
@[simp] theorem State.setReg_answer (r : Reg) (v : Byte) (i : Word) : (s.setReg r v).answer i = s.answer i := rfl
@[simp] theorem State.setReg_readValue (r : Reg) (v : Byte) (i : Word) : (s.setReg r v).readValue i = s.readValue i := rfl
@[simp] theorem State.setReg_flag (r : Reg) (v : Byte) (g : Flag) : (s.setReg r v).flag g = s.flag g := rfl
@[simp] theorem State.setReg_byteAt (r : Reg) (v : Byte) (i : Word) : (s.setReg r v).byteAt i = s.byteAt i := rfl
@[simp] theorem State.setReg_accessFails (r : Reg) (v : Byte) (k : AccessKind) (i : Word) : (s.setReg r v).accessFails k i = s.accessFails k i := rfl
@[simp] theorem State.setReg_readF (r : Reg) (v : Byte) : (s.setReg r v).readF = s.readF  := rfl

/-! ### `clock` -/

@[simp] theorem State.clock_regs (mc tc : Nat) : (s.clock mc tc).regs = s.regs := rfl
@[simp] theorem State.clock_flags (mc tc : Nat) : (s.clock mc tc).flags = s.flags := rfl
@[simp] theorem State.clock_pc (mc tc : Nat) : (s.clock mc tc).pc = s.pc := rfl
@[simp] theorem State.clock_sp (mc tc : Nat) : (s.clock mc tc).sp = s.sp := rfl
@[simp] theorem State.clock_m (mc tc : Nat) : (s.clock mc tc).m = mc := rfl
@[simp] theorem State.clock_t (mc tc : Nat) : (s.clock mc tc).t = tc := rfl
@[simp] theorem State.clock_clockM (mc tc : Nat) : (s.clock mc tc).clockM = wrapClock s.params.clockBits (s.clockM + mc) := rfl
@[simp] theorem State.clock_clockT (mc tc : Nat) : (s.clock mc tc).clockT = wrapClock s.params.clockBits (s.clockT + tc) := rfl
@[simp] theorem State.clock_halted (mc tc : Nat) : (s.clock mc tc).halted = s.halted := rfl
@[simp] theorem State.clock_stopped (mc tc : Nat) : (s.clock mc tc).stopped = s.stopped := rfl
@[simp] theorem State.clock_mem (mc tc : Nat) : (s.clock mc tc).mem = s.mem := rfl
@[simp] theorem State.clock_bus (mc tc : Nat) : (s.clock mc tc).bus = s.bus := rfl
@[simp] theorem State.clock_schedule (mc tc : Nat) : (s.clock mc tc).schedule = s.schedule := rfl
@[simp] theorem State.clock_params (mc tc : Nat) : (s.clock mc tc).params = s.params := rfl
@[simp] theorem State.clock_answers (mc tc : Nat) : (s.clock mc tc).answers = s.answers := rfl
@[simp] theorem State.clock_isOpen (mc tc : Nat) (i : Word) : (s.clock mc tc).isOpen i = s.isOpen i := rfl
@[simp] theorem State.clock_answer (mc tc : Nat) (i : Word) : (s.clock mc tc).answer i = s.answer i := rfl
@[simp] theorem State.clock_readValue (mc tc : Nat) (i : Word) : (s.clock mc tc).readValue i = s.readValue i := rfl
@[simp] theorem State.clock_reg (mc tc : Nat) (q : Reg) : (s.clock mc tc).reg q = s.reg q := rfl
@[simp] theorem State.clock_pair (mc tc : Nat) (p : Pair) : (s.clock mc tc).pair p = s.pair p := rfl
@[simp] theorem State.clock_flag (mc tc : Nat) (g : Flag) : (s.clock mc tc).flag g = s.flag g := rfl
@[simp] theorem State.clock_byteAt (mc tc : Nat) (i : Word) : (s.clock mc tc).byteAt i = s.byteAt i := rfl
@[simp] theorem State.clock_accessFails (mc tc : Nat) (k : AccessKind) (i : Word) : (s.clock mc tc).accessFails k i = s.accessFails k i := rfl
@[simp] theorem State.clock_readF (mc tc : Nat) : (s.clock mc tc).readF = s.readF  := rfl

/-! ### `setPair` -/

@[simp] theorem State.setPair_flags (p : Pair) (v : Word) : (s.setPair p v).flags = s.flags := rfl
@[simp] theorem State.setPair_pc (p : Pair) (v : Word) : (s.setPair p v).pc = s.pc := rfl
@[simp] theorem State.setPair_sp (p : Pair) (v : Word) : (s.setPair p v).sp = s.sp := rfl
@[simp] theorem State.setPair_m (p : Pair) (v : Word) : (s.setPair p v).m = s.m := rfl
@[simp] theorem State.setPair_t (p : Pair) (v : Word) : (s.setPair p v).t = s.t := rfl
@[simp] theorem State.setPair_clockM (p : Pair) (v : Word) : (s.setPair p v).clockM = s.clockM := rfl
@[simp] theorem State.setPair_clockT (p : Pair) (v : Word) : (s.setPair p v).clockT = s.clockT := rfl
@[simp] theorem State.setPair_halted (p : Pair) (v : Word) : (s.setPair p v).halted = s.halted := rfl
@[simp] theorem State.setPair_stopped (p : Pair) (v : Word) : (s.setPair p v).stopped = s.stopped := rfl
@[simp] theorem State.setPair_mem (p : Pair) (v : Word) : (s.setPair p v).mem = s.mem := rfl
@[simp] theorem State.setPair_bus (p : Pair) (v : Word) : (s.setPair p v).bus = s.bus := rfl
@[simp] theorem State.setPair_schedule (p : Pair) (v : Word) : (s.setPair p v).schedule = s.schedule := rfl
@[simp] theorem State.setPair_params (p : Pair) (v : Word) : (s.setPair p v).params = s.params := rfl
@[simp] theorem State.setPair_answers (p : Pair) (v : Word) : (s.setPair p v).answers = s.answers := rfl
@[simp] theorem State.setPair_isOpen (p : Pair) (v : Word) (i : Word) : (s.setPair p v).isOpen i = s.isOpen i := rfl
@[simp] theorem State.setPair_answer (p : Pair) (v : Word) (i : Word) : (s.setPair p v).answer i = s.answer i := rfl
@[simp] theorem State.setPair_readValue (p : Pair) (v : Word) (i : Word) : (s.setPair p v).readValue i = s.readValue i := rfl
@[simp] theorem State.setPair_flag (p : Pair) (v : Word) (g : Flag) : (s.setPair p v).flag g = s.flag g := rfl
@[simp] theorem State.setPair_readF (p : Pair) (v : Word) : (s.setPair p v).readF = s.readF := rfl
@[simp] theorem State.setPair_byteAt (p : Pair) (v : Word) (i : Word) : (s.setPair p v).byteAt i = s.byteAt i := rfl

/-! ### `writeF` -/

@[simp] theorem State.writeF_regs (v : Byte) : (s.writeF v).regs = s.regs := rfl
@[simp] theorem State.writeF_pc (v : Byte) : (s.writeF v).pc = s.pc := rfl
@[simp] theorem State.writeF_sp (v : Byte) : (s.writeF v).sp = s.sp := rfl
@[simp] theorem State.writeF_m (v : Byte) : (s.writeF v).m = s.m := rfl
@[simp] theorem State.writeF_t (v : Byte) : (s.writeF v).t = s.t := rfl
@[simp] theorem State.writeF_clockM (v : Byte) : (s.writeF v).clockM = s.clockM := rfl
@[simp] theorem State.writeF_clockT (v : Byte) : (s.writeF v).clockT = s.clockT := rfl
@[simp] theorem State.writeF_halted (v : Byte) : (s.writeF v).halted = s.halted := rfl
@[simp] theorem State.writeF_stopped (v : Byte) : (s.writeF v).stopped = s.stopped := rfl
@[simp] theorem State.writeF_mem (v : Byte) : (s.writeF v).mem = s.mem := rfl
@[simp] theorem State.writeF_bus (v : Byte) : (s.writeF v).bus = s.bus := rfl
@[simp] theorem State.writeF_schedule (v : Byte) : (s.writeF v).schedule = s.schedule := rfl
@[simp] theorem State.writeF_params (v : Byte) : (s.writeF v).params = s.params := rfl
@[simp] theorem State.writeF_answers (v : Byte) : (s.writeF v).answers = s.answers := rfl
@[simp] theorem State.writeF_isOpen (v : Byte) (i : Word) : (s.writeF v).isOpen i = s.isOpen i := rfl
@[simp] theorem State.writeF_answer (v : Byte) (i : Word) : (s.writeF v).answer i = s.answer i := rfl
@[simp] theorem State.writeF_readValue (v : Byte) (i : Word) : (s.writeF v).readValue i = s.readValue i := rfl
@[simp] theorem State.writeF_reg (v : Byte) (q : Reg) : (s.writeF v).reg q = s.reg q := rfl
@[simp] theorem State.writeF_pair (v : Byte) (p : Pair) : (s.writeF v).pair p = s.pair p := rfl
@[simp] theorem State.writeF_byteAt (v : Byte) (i : Word) : (s.writeF v).byteAt i = s.byteAt i := rfl

/-! ### `takeAnswer` -/

@[simp] theorem State.takeAnswer_regs (a : Word) : (s.takeAnswer a).regs = s.regs := rfl
@[simp] theorem State.takeAnswer_flags (a : Word) : (s.takeAnswer a).flags = s.flags := rfl
@[simp] theorem State.takeAnswer_pc (a : Word) : (s.takeAnswer a).pc = s.pc := rfl
@[simp] theorem State.takeAnswer_sp (a : Word) : (s.takeAnswer a).sp = s.sp := rfl
@[simp] theorem State.takeAnswer_m (a : Word) : (s.takeAnswer a).m = s.m := rfl
@[simp] theorem State.takeAnswer_t (a : Word) : (s.takeAnswer a).t = s.t := rfl
@[simp] theorem State.takeAnswer_clockM (a : Word) : (s.takeAnswer a).clockM = s.clockM := rfl
@[simp] theorem State.takeAnswer_clockT (a : Word) : (s.takeAnswer a).clockT = s.clockT := rfl
@[simp] theorem State.takeAnswer_halted (a : Word) : (s.takeAnswer a).halted = s.halted := rfl
@[simp] theorem State.takeAnswer_stopped (a : Word) : (s.takeAnswer a).stopped = s.stopped := rfl
@[simp] theorem State.takeAnswer_mem (a : Word) : (s.takeAnswer a).mem = s.mem := rfl
@[simp] theorem State.takeAnswer_bus (a : Word) : (s.takeAnswer a).bus = s.bus := rfl
@[simp] theorem State.takeAnswer_schedule (a : Word) : (s.takeAnswer a).schedule = s.schedule := rfl
@[simp] theorem State.takeAnswer_params (a : Word) : (s.takeAnswer a).params = s.params := rfl
@[simp] theorem State.takeAnswer_reg (a : Word) (q : Reg) : (s.takeAnswer a).reg q = s.reg q := rfl
@[simp] theorem State.takeAnswer_pair (a : Word) (p : Pair) : (s.takeAnswer a).pair p = s.pair p := rfl
@[simp] theorem State.takeAnswer_flag (a : Word) (g : Flag) : (s.takeAnswer a).flag g = s.flag g := rfl
@[simp] theorem State.takeAnswer_readF (a : Word) : (s.takeAnswer a).readF = s.readF := rfl
@[simp] theorem State.takeAnswer_isOpen (a : Word) (i : Word) : (s.takeAnswer a).isOpen i = s.isOpen i := rfl
@[simp] theorem State.takeAnswer_byteAt (a : Word) (i : Word) : (s.takeAnswer a).byteAt i = s.byteAt i := rfl

/-! ### `storeByte` -/

@[simp] theorem State.storeByte_regs (a : Word) (v : Byte) : (s.storeByte a v).regs = s.regs := rfl
@[simp] theorem State.storeByte_flags (a : Word) (v : Byte) : (s.storeByte a v).flags = s.flags := rfl
@[simp] theorem State.storeByte_pc (a : Word) (v : Byte) : (s.storeByte a v).pc = s.pc := rfl
@[simp] theorem State.storeByte_sp (a : Word) (v : Byte) : (s.storeByte a v).sp = s.sp := rfl
@[simp] theorem State.storeByte_m (a : Word) (v : Byte) : (s.storeByte a v).m = s.m := rfl
@[simp] theorem State.storeByte_t (a : Word) (v : Byte) : (s.storeByte a v).t = s.t := rfl
@[simp] theorem State.storeByte_clockM (a : Word) (v : Byte) : (s.storeByte a v).clockM = s.clockM := rfl
@[simp] theorem State.storeByte_clockT (a : Word) (v : Byte) : (s.storeByte a v).clockT = s.clockT := rfl
@[simp] theorem State.storeByte_halted (a : Word) (v : Byte) : (s.storeByte a v).halted = s.halted := rfl
@[simp] theorem State.storeByte_stopped (a : Word) (v : Byte) : (s.storeByte a v).stopped = s.stopped := rfl
@[simp] theorem State.storeByte_bus (a : Word) (v : Byte) : (s.storeByte a v).bus = s.bus := rfl
@[simp] theorem State.storeByte_schedule (a : Word) (v : Byte) : (s.storeByte a v).schedule = s.schedule := rfl
@[simp] theorem State.storeByte_params (a : Word) (v : Byte) : (s.storeByte a v).params = s.params := rfl
@[simp] theorem State.storeByte_reg (a : Word) (v : Byte) (q : Reg) : (s.storeByte a v).reg q = s.reg q := rfl
@[simp] theorem State.storeByte_pair (a : Word) (v : Byte) (p : Pair) : (s.storeByte a v).pair p = s.pair p := rfl
@[simp] theorem State.storeByte_flag (a : Word) (v : Byte) (g : Flag) : (s.storeByte a v).flag g = s.flag g := rfl
@[simp] theorem State.storeByte_readF (a : Word) (v : Byte) : (s.storeByte a v).readF = s.readF := rfl
@[simp] theorem State.storeByte_isOpen (a : Word) (v : Byte) (i : Word) : (s.storeByte a v).isOpen i = s.isOpen i := rfl

@[simp] theorem State.storeByte_answers (a : Word) (v : Byte) : (s.storeByte a v).answers = (s.takeAnswer a).answers := rfl

/-! ### Registers and pairs -/

theorem RegFile.get_set (f : RegFile) (r q : Reg) (v : Byte) :
    (f.set r v).get q = if q = r then v else f.get q := by
  cases r <;> cases q <;> rfl

/-- A written register reads as the value written, every other one as before. -/
@[simp] theorem State.reg_setReg (r q : Reg) (v : Byte) :
    (s.setReg r v).reg q = if q = r then v else s.reg q :=
  RegFile.get_set s.regs r q v

@[simp] theorem State.flag_setFlags (f : Flags) (g : Flag) : (s.setFlags f).flag g = f.get g := rfl

@[simp] theorem State.readF_setFlags (f : Flags) : (s.setFlags f).readF = f.toByte := rfl

theorem Pair.lo_ne_hi (p : Pair) : p.lo ≠ p.hi := by cases p <;> decide

@[simp] theorem Pair.hi_ne_lo (p : Pair) : (p.hi = p.lo) = False := by cases p <;> decide

@[simp] theorem Pair.lo_eq_hi (p : Pair) : (p.lo = p.hi) = False := by cases p <;> decide

end Sys2Proof.Machine
end

