-- ==== Sys2Proof/Laws/Ops.lean ====
section
/-! SUPPORT. One lemma per shared operation: what it answers when the memory collaborator answers, and everything it can
answer at all. -/

namespace Sys2Proof.Machine

/-! ### `andThen` -/

@[simp] theorem andThen_next {σ τ : Type} (x : σ) (k : σ → Host.Outcome τ Fault Refusal) :
    andThen (.next x) k = k x := rfl

@[simp] theorem andThen_fault {σ τ : Type} (f : Fault) (k : σ → Host.Outcome τ Fault Refusal) :
    andThen (.fault f) k = .fault f := rfl

@[simp] theorem andThen_refused {σ τ : Type} (r : Refusal) (k : σ → Host.Outcome τ Fault Refusal) :
    andThen (.refused r) k = .refused r := rfl

theorem andThen_eq_next {σ τ : Type} {o : Host.Outcome σ Fault Refusal} {k : σ → Host.Outcome τ Fault Refusal} {y : τ} :
    andThen o k = .next y ↔ ∃ x, o = .next x ∧ k x = .next y := by
  cases o <;> simp [andThen]

theorem andThen_eq_fault {σ τ : Type} {o : Host.Outcome σ Fault Refusal} {k : σ → Host.Outcome τ Fault Refusal} {f : Fault} :
    andThen o k = .fault f ↔ o = .fault f ∨ ∃ x, o = .next x ∧ k x = .fault f := by
  cases o <;> simp [andThen]

theorem andThen_eq_refused {σ τ : Type} {o : Host.Outcome σ Fault Refusal} {k : σ → Host.Outcome τ Fault Refusal}
    {r : Refusal} : andThen o k = .refused r ↔ o = .refused r ∨ ∃ x, o = .next x ∧ k x = .refused r := by
  cases o <;> simp [andThen]

/-! ### The memory port -/

/-- The state after one byte is loaded. -/
def State.afterLoad (s : State) (a : Word) : State := (s.takeAnswer a).noteAccess (.read a (s.readValue a))

/-- The state after one byte is stored. -/
def State.afterStore (s : State) (a : Word) (v : Byte) : State := (s.storeByte a v).noteAccess (.write a v)

@[simp] theorem State.afterLoad_pc (s : State) (a : Word) : (s.afterLoad a).pc = s.pc := rfl
@[simp] theorem State.afterLoad_sp (s : State) (a : Word) : (s.afterLoad a).sp = s.sp := rfl
@[simp] theorem State.afterLoad_m (s : State) (a : Word) : (s.afterLoad a).m = s.m := rfl
@[simp] theorem State.afterLoad_t (s : State) (a : Word) : (s.afterLoad a).t = s.t := rfl
@[simp] theorem State.afterLoad_clockM (s : State) (a : Word) : (s.afterLoad a).clockM = s.clockM := rfl
@[simp] theorem State.afterLoad_clockT (s : State) (a : Word) : (s.afterLoad a).clockT = s.clockT := rfl
@[simp] theorem State.afterLoad_halted (s : State) (a : Word) : (s.afterLoad a).halted = s.halted := rfl
@[simp] theorem State.afterLoad_stopped (s : State) (a : Word) : (s.afterLoad a).stopped = s.stopped := rfl
@[simp] theorem State.afterLoad_flags (s : State) (a : Word) : (s.afterLoad a).flags = s.flags := rfl
@[simp] theorem State.afterLoad_regs (s : State) (a : Word) : (s.afterLoad a).regs = s.regs := rfl
@[simp] theorem State.afterLoad_schedule (s : State) (a : Word) : (s.afterLoad a).schedule = s.schedule := rfl
@[simp] theorem State.afterLoad_params (s : State) (a : Word) : (s.afterLoad a).params = s.params := rfl
@[simp] theorem State.afterLoad_readF (s : State) (a : Word) : (s.afterLoad a).readF = s.readF := rfl
@[simp] theorem State.afterLoad_mem (s : State) (a : Word) : (s.afterLoad a).mem = s.mem := rfl
@[simp] theorem State.afterLoad_reg (s : State) (a : Word) (r : Reg) : (s.afterLoad a).reg r = s.reg r := rfl
@[simp] theorem State.afterLoad_pair (s : State) (a : Word) (p : Pair) : (s.afterLoad a).pair p = s.pair p := rfl
@[simp] theorem State.afterLoad_flag (s : State) (a : Word) (f : Flag) : (s.afterLoad a).flag f = s.flag f := rfl
@[simp] theorem State.afterLoad_isOpen (s : State) (a : Word) (i : Word) : (s.afterLoad a).isOpen i = s.isOpen i := rfl
@[simp] theorem State.afterLoad_byteAt (s : State) (a : Word) (i : Word) : (s.afterLoad a).byteAt i = s.byteAt i := rfl
@[simp] theorem State.afterLoad_readValue (s : State) (a b : Word) : (s.afterLoad a).readValue b = (s.takeAnswer a).readValue b := rfl
@[simp] theorem State.afterLoad_bus (s : State) (a : Word) : (s.afterLoad a).bus = s.bus ++ [.read a (s.readValue a)] := rfl
@[simp] theorem State.afterLoad_answers (s : State) (a : Word) : (s.afterLoad a).answers = (s.takeAnswer a).answers := rfl

@[simp] theorem State.afterStore_pc (s : State) (a : Word) (v : Byte) : (s.afterStore a v).pc = s.pc := rfl
@[simp] theorem State.afterStore_sp (s : State) (a : Word) (v : Byte) : (s.afterStore a v).sp = s.sp := rfl
@[simp] theorem State.afterStore_m (s : State) (a : Word) (v : Byte) : (s.afterStore a v).m = s.m := rfl
@[simp] theorem State.afterStore_t (s : State) (a : Word) (v : Byte) : (s.afterStore a v).t = s.t := rfl
@[simp] theorem State.afterStore_clockM (s : State) (a : Word) (v : Byte) : (s.afterStore a v).clockM = s.clockM := rfl
@[simp] theorem State.afterStore_clockT (s : State) (a : Word) (v : Byte) : (s.afterStore a v).clockT = s.clockT := rfl
@[simp] theorem State.afterStore_halted (s : State) (a : Word) (v : Byte) : (s.afterStore a v).halted = s.halted := rfl
@[simp] theorem State.afterStore_stopped (s : State) (a : Word) (v : Byte) : (s.afterStore a v).stopped = s.stopped := rfl
@[simp] theorem State.afterStore_flags (s : State) (a : Word) (v : Byte) : (s.afterStore a v).flags = s.flags := rfl
@[simp] theorem State.afterStore_regs (s : State) (a : Word) (v : Byte) : (s.afterStore a v).regs = s.regs := rfl
@[simp] theorem State.afterStore_schedule (s : State) (a : Word) (v : Byte) : (s.afterStore a v).schedule = s.schedule := rfl
@[simp] theorem State.afterStore_params (s : State) (a : Word) (v : Byte) : (s.afterStore a v).params = s.params := rfl
@[simp] theorem State.afterStore_readF (s : State) (a : Word) (v : Byte) : (s.afterStore a v).readF = s.readF := rfl
@[simp] theorem State.afterStore_reg (s : State) (a : Word) (v : Byte) (r : Reg) : (s.afterStore a v).reg r = s.reg r := rfl
@[simp] theorem State.afterStore_pair (s : State) (a : Word) (v : Byte) (p : Pair) : (s.afterStore a v).pair p = s.pair p := rfl
@[simp] theorem State.afterStore_flag (s : State) (a : Word) (v : Byte) (f : Flag) : (s.afterStore a v).flag f = s.flag f := rfl
@[simp] theorem State.afterStore_isOpen (s : State) (a : Word) (v : Byte) (i : Word) : (s.afterStore a v).isOpen i = s.isOpen i := rfl
@[simp] theorem State.afterStore_bus (s : State) (a : Word) (v : Byte) : (s.afterStore a v).bus = s.bus ++ [.write a v] := rfl
@[simp] theorem State.afterStore_answers (s : State) (a : Word) (v : Byte) : (s.afterStore a v).answers = (s.takeAnswer a).answers := rfl

@[simp] theorem State.afterStore_byteAt (s : State) (a : Word) (v : Byte) (b : Word) :
    (s.afterStore a v).byteAt b = if b = a ∧ s.answer a = none then v else s.byteAt b :=
  State.byteAt_storeByte s a b v

theorem State.wf_afterStore {s : State} (a : Word) (v : Byte) (h : Memory.wf s.mem = true) :
    Memory.wf (s.afterStore a v).mem = true := State.wf_storeByte a v h

theorem readByte_answers {s : State} {a : Word} (h : s.canRead a) :
    readByte a s = .next (s.readValue a, s.afterLoad a) := by
  unfold State.canRead at h
  simp [readByte, h, State.afterLoad]

theorem readByte_fails {s : State} {a : Word} (h : s.accessFails .read a = true) :
    readByte a s = .fault (.memoryAccess .read a) := by
  simp [readByte, h]

theorem writeByte_answers {s : State} {a : Word} (v : Byte) (h : s.canWrite a) :
    writeByte a v s = .next (s.afterStore a v) := by
  unfold State.canWrite at h
  simp [writeByte, h, State.afterStore]

theorem writeByte_fails {s : State} {a : Word} (v : Byte) (h : s.accessFails .write a = true) :
    writeByte a v s = .fault (.memoryAccess .write a) := by
  simp [writeByte, h]

/-- Everything a byte read can answer. -/
theorem readByte_cases (a : Word) (s : State) :
    (s.canRead a ∧ readByte a s = .next (s.readValue a, s.afterLoad a)) ∨
      (s.accessFails .read a = true ∧ readByte a s = .fault (.memoryAccess .read a)) := by
  cases h : s.accessFails .read a
  · exact .inl ⟨h, readByte_answers h⟩
  · exact .inr ⟨rfl, readByte_fails h⟩

/-- Everything a byte write can answer. -/
theorem writeByte_cases (a : Word) (v : Byte) (s : State) :
    (s.canWrite a ∧ writeByte a v s = .next (s.afterStore a v)) ∨
      (s.accessFails .write a = true ∧ writeByte a v s = .fault (.memoryAccess .write a)) := by
  cases h : s.accessFails .write a
  · exact .inl ⟨h, writeByte_answers v h⟩
  · exact .inr ⟨rfl, writeByte_fails v h⟩

theorem State.plainMemory_iff (s : State) :
    s.plainMemory = true ↔ s.params.memFails = [] ∧ s.params.openRanges = [] := by
  simp [State.plainMemory]

/-- Which addresses are open, and whether the memory is the default one, is a matter of the parameters alone. -/
theorem isOpen_congr {s t : State} (h : t.params = s.params) (a : Word) : t.isOpen a = s.isOpen a := by
  unfold State.isOpen
  rw [h]

theorem plainMemory_congr {s t : State} (h : t.params = s.params) : t.plainMemory = s.plainMemory := by
  unfold State.plainMemory
  rw [h]

/-- With the default memory no address is open. -/
theorem isOpen_of_plain {s : State} (h : s.plainMemory = true) (a : Word) : s.isOpen a = false := by
  simp [State.isOpen, (State.plainMemory_iff s).mp h]

/-- With the default memory no access fails. -/
theorem accessFails_of_plain {s : State} (h : s.plainMemory = true) (k : AccessKind) (a : Word) :
    s.accessFails k a = false := by
  simp [State.accessFails, (State.plainMemory_iff s).mp h, State.answer_of_ram (isOpen_of_plain h a)]

/-! ### Immediates -/

/-- The state after one byte is fetched at `PC`. -/
def State.afterFetch (s : State) : State := (s.afterLoad s.pc).setPc (s.pc + 1)

@[simp] theorem State.afterFetch_pc (s : State) : (s.afterFetch).pc = s.pc + 1 := rfl
@[simp] theorem State.afterFetch_reg (s : State) (r : Reg) : (s.afterFetch).reg r = s.reg r := rfl
@[simp] theorem State.afterFetch_pair (s : State) (p : Pair) : (s.afterFetch).pair p = s.pair p := rfl
@[simp] theorem State.afterFetch_flag (s : State) (f : Flag) : (s.afterFetch).flag f = s.flag f := rfl
@[simp] theorem State.afterFetch_flags (s : State) : (s.afterFetch).flags = s.flags := rfl
@[simp] theorem State.afterFetch_regs (s : State) : (s.afterFetch).regs = s.regs := rfl
@[simp] theorem State.afterFetch_readF (s : State) : (s.afterFetch).readF = s.readF := rfl
@[simp] theorem State.afterFetch_sp (s : State) : (s.afterFetch).sp = s.sp := rfl
@[simp] theorem State.afterFetch_m (s : State) : (s.afterFetch).m = s.m := rfl
@[simp] theorem State.afterFetch_t (s : State) : (s.afterFetch).t = s.t := rfl
@[simp] theorem State.afterFetch_clockM (s : State) : (s.afterFetch).clockM = s.clockM := rfl
@[simp] theorem State.afterFetch_clockT (s : State) : (s.afterFetch).clockT = s.clockT := rfl
@[simp] theorem State.afterFetch_halted (s : State) : (s.afterFetch).halted = s.halted := rfl
@[simp] theorem State.afterFetch_stopped (s : State) : (s.afterFetch).stopped = s.stopped := rfl
@[simp] theorem State.afterFetch_mem (s : State) : (s.afterFetch).mem = s.mem := rfl
@[simp] theorem State.afterFetch_byteAt (s : State) (a : Word) : (s.afterFetch).byteAt a = s.byteAt a := rfl
@[simp] theorem State.afterFetch_bus (s : State) : (s.afterFetch).bus = s.bus ++ [.read s.pc s.imm0] := rfl
@[simp] theorem State.afterFetch_imm0 (s : State) : (s.afterFetch).imm0 = s.imm1 := rfl
@[simp] theorem State.afterFetch_readValue (s : State) (a : Word) : (s.afterFetch).readValue a = (s.takeAnswer s.pc).readValue a := rfl
@[simp] theorem State.afterFetch_answers (s : State) : (s.afterFetch).answers = (s.takeAnswer s.pc).answers := rfl
@[simp] theorem State.afterFetch_isOpen (s : State) (i : Word) : (s.afterFetch).isOpen i = s.isOpen i := rfl
@[simp] theorem State.afterFetch_schedule (s : State) : (s.afterFetch).schedule = s.schedule := rfl
@[simp] theorem State.afterFetch_params (s : State) : (s.afterFetch).params = s.params := rfl

theorem fetchByte_answers {s : State} (h : s.canRead s.pc) : fetchByte s = .next (s.readValue s.pc, s.afterFetch) := by
  simp [fetchByte, readByte_answers h, State.afterFetch]

theorem imm8_answers {s : State} (h : s.canRead s.pc) : imm8 s = .next (s.imm0, s.afterFetch) :=
  fetchByte_answers h

theorem imm16_answers {s : State} (h : s.canRead s.pc) (h1 : (s.takeAnswer s.pc).canRead (s.pc + 1)) :
    imm16 s = .next (s.immWord, s.afterFetch.afterFetch) := by
  have h2 : s.afterFetch.canRead s.afterFetch.pc := h1
  simp only [imm16, imm8_answers h, imm8_answers h2, andThen_next]
  rfl

/-! ### The second operand of the 8-bit ALU -/

/-- The state after the second operand is read. -/
def State.afterOperand (s : State) (x : Operand8) : State :=
  match x with
  | .reg _ => s
  | .memHL => s.afterLoad (s.pair .HL)

@[simp] theorem State.afterOperand_pc (s : State) (x : Operand8) : (s.afterOperand x).pc = s.pc := by cases x <;> rfl
@[simp] theorem State.afterOperand_reg (s : State) (x : Operand8) (r : Reg) : (s.afterOperand x).reg r = s.reg r := by cases x <;> rfl
@[simp] theorem State.afterOperand_pair (s : State) (x : Operand8) (p : Pair) : (s.afterOperand x).pair p = s.pair p := by cases x <;> rfl
@[simp] theorem State.afterOperand_flag (s : State) (x : Operand8) (f : Flag) : (s.afterOperand x).flag f = s.flag f := by cases x <;> rfl
@[simp] theorem State.afterOperand_flags (s : State) (x : Operand8) : (s.afterOperand x).flags = s.flags := by cases x <;> rfl
@[simp] theorem State.afterOperand_readF (s : State) (x : Operand8) : (s.afterOperand x).readF = s.readF := by cases x <;> rfl
@[simp] theorem State.afterOperand_sp (s : State) (x : Operand8) : (s.afterOperand x).sp = s.sp := by cases x <;> rfl
@[simp] theorem State.afterOperand_clockM (s : State) (x : Operand8) : (s.afterOperand x).clockM = s.clockM := by cases x <;> rfl
@[simp] theorem State.afterOperand_clockT (s : State) (x : Operand8) : (s.afterOperand x).clockT = s.clockT := by cases x <;> rfl
@[simp] theorem State.afterOperand_halted (s : State) (x : Operand8) : (s.afterOperand x).halted = s.halted := by cases x <;> rfl
@[simp] theorem State.afterOperand_stopped (s : State) (x : Operand8) : (s.afterOperand x).stopped = s.stopped := by cases x <;> rfl
@[simp] theorem State.afterOperand_mem (s : State) (x : Operand8) : (s.afterOperand x).mem = s.mem := by cases x <;> rfl
@[simp] theorem State.afterOperand_byteAt (s : State) (x : Operand8) (a : Word) : (s.afterOperand x).byteAt a = s.byteAt a := by cases x <;> rfl
@[simp] theorem State.afterOperand_bus (s : State) (x : Operand8) : (s.afterOperand x).bus = s.bus ++ s.operandAccesses x := by
  cases x <;> simp [State.afterOperand, State.operandAccesses]
@[simp] theorem State.afterOperand_schedule (s : State) (x : Operand8) : (s.afterOperand x).schedule = s.schedule := by cases x <;> rfl
@[simp] theorem State.afterOperand_params (s : State) (x : Operand8) : (s.afterOperand x).params = s.params := by cases x <;> rfl

theorem readOperand_answers {x : Operand8} {s : State} (h : s.canReadOperand x) :
    readOperand x s = .next (s.operandValue x, s.afterOperand x) := by
  cases x with
  | reg r => rfl
  | memHL => exact readByte_answers h

theorem operandCycles_eq (x : Operand8) : operandCycles x = if x = .memHL then 8 else 4 := by
  cases x <;> simp [operandCycles]

/-! ### Words and the stack -/

theorem readWord_answers {s : State} {a : Word} (h : s.canRead a) (h1 : (s.takeAnswer a).canRead (a + 1)) :
    readWord a s = .next (joinBytes ((s.takeAnswer a).readValue (a + 1)) (s.readValue a),
      (s.afterLoad a).afterLoad (a + 1)) := by
  have h2 : (s.afterLoad a).canRead (a + 1) := h1
  simp only [readWord, readByte_answers h, readByte_answers h2, andThen_next]
  rfl

theorem writeWord_answers {s : State} {a : Word} (v : Word) (h : s.canWrite a)
    (h1 : (s.storeByte a (loByte v)).canWrite (a + 1)) :
    writeWord a v s = .next ((s.afterStore a (loByte v)).afterStore (a + 1) (hiByte v)) := by
  have h2 : (s.afterStore a (loByte v)).canWrite (a + 1) := h1
  simp only [writeWord, writeByte_answers _ h, writeByte_answers _ h2, andThen_next]

/-- The state after one byte is pushed. -/
def State.afterPush (s : State) (v : Byte) : State :=
  (s.setSp (s.sp - 1)).afterStore (s.sp - 1) v

@[simp] theorem State.afterPush_pc (s : State) (v : Byte) : (s.afterPush v).pc = s.pc := rfl
@[simp] theorem State.afterPush_reg (s : State) (v : Byte) (r : Reg) : (s.afterPush v).reg r = s.reg r := rfl
@[simp] theorem State.afterPush_pair (s : State) (v : Byte) (p : Pair) : (s.afterPush v).pair p = s.pair p := rfl
@[simp] theorem State.afterPush_flag (s : State) (v : Byte) (f : Flag) : (s.afterPush v).flag f = s.flag f := rfl
@[simp] theorem State.afterPush_flags (s : State) (v : Byte) : (s.afterPush v).flags = s.flags := rfl
@[simp] theorem State.afterPush_regs (s : State) (v : Byte) : (s.afterPush v).regs = s.regs := rfl
@[simp] theorem State.afterPush_readF (s : State) (v : Byte) : (s.afterPush v).readF = s.readF := rfl
@[simp] theorem State.afterPush_sp (s : State) (v : Byte) : (s.afterPush v).sp = s.sp - 1 := rfl
@[simp] theorem State.afterPush_m (s : State) (v : Byte) : (s.afterPush v).m = s.m := rfl
@[simp] theorem State.afterPush_t (s : State) (v : Byte) : (s.afterPush v).t = s.t := rfl
@[simp] theorem State.afterPush_clockM (s : State) (v : Byte) : (s.afterPush v).clockM = s.clockM := rfl
@[simp] theorem State.afterPush_clockT (s : State) (v : Byte) : (s.afterPush v).clockT = s.clockT := rfl
@[simp] theorem State.afterPush_halted (s : State) (v : Byte) : (s.afterPush v).halted = s.halted := rfl
@[simp] theorem State.afterPush_stopped (s : State) (v : Byte) : (s.afterPush v).stopped = s.stopped := rfl
@[simp] theorem State.afterPush_answers (s : State) (v : Byte) : (s.afterPush v).answers = (s.takeAnswer (s.sp - 1)).answers := rfl
@[simp] theorem State.afterPush_isOpen (s : State) (v : Byte) (i : Word) : (s.afterPush v).isOpen i = s.isOpen i := rfl
@[simp] theorem State.afterPush_bus (s : State) (v : Byte) : (s.afterPush v).bus = s.bus ++ [.write (s.sp - 1) v] := rfl
@[simp] theorem State.afterPush_schedule (s : State) (v : Byte) : (s.afterPush v).schedule = s.schedule := rfl
@[simp] theorem State.afterPush_params (s : State) (v : Byte) : (s.afterPush v).params = s.params := rfl

@[simp] theorem State.afterPush_byteAt (s : State) (v : Byte) (a : Word) :
    (s.afterPush v).byteAt a = if a = s.sp - 1 ∧ s.answer (s.sp - 1) = none then v else s.byteAt a :=
  State.byteAt_storeByte (s.setSp (s.sp - 1)) (s.sp - 1) a v

theorem State.wf_afterPush {s : State} (v : Byte) (h : Memory.wf s.mem = true) : Memory.wf (s.afterPush v).mem = true :=
  State.wf_storeByte (s := s.setSp (s.sp - 1)) (s.sp - 1) v h

theorem pushByte_answers {s : State} (v : Byte) (h : s.canWrite (s.sp - 1)) : pushByte v s = .next (s.afterPush v) :=
  writeByte_answers (s := s.setSp (s.sp - 1)) v h

theorem pushBytes_answers {s : State} (hi lo : Byte) (h : s.canWrite (s.sp - 1))
    (h1 : (s.storeByte (s.sp - 1) hi).canWrite (s.sp - 1 - 1)) :
    pushBytes hi lo s = .next ((s.afterPush hi).afterPush lo) := by
  have h2 : (s.afterPush hi).canWrite ((s.afterPush hi).sp - 1) := h1
  simp only [pushBytes, pushByte_answers hi h, pushByte_answers lo h2, andThen_next]

theorem popBytes_answers {s : State} (h : s.canRead s.sp) (h1 : (s.takeAnswer s.sp).canRead (s.sp + 1)) :
    popBytes s = .next (((s.takeAnswer s.sp).readValue (s.sp + 1), s.readValue s.sp),
      ((s.afterLoad s.sp).afterLoad (s.sp + 1)).setSp (s.sp + 2)) := by
  have h2 : (s.afterLoad s.sp).canRead (s.sp + 1) := h1
  simp only [popBytes, readByte_answers h, andThen_next, State.afterLoad_sp, readByte_answers h2]
  rfl

end Sys2Proof.Machine
end

