-- ==== Sys2Proof/Laws/Forms.lean ====
section
/-! SUPPORT. The meaning of each form over the shared operations, and the one lemma that takes `exec` to it: a proof about an
instruction cites it and never unfolds the dispatch. -/

namespace Sys2Proof.Machine

/-- The shared operation behind each 8-bit ALU operation. -/
def runAlu (o : AluOp) (x : Operand8) (s : State) : Host.Outcome State Fault Refusal :=
  match o with
  | .add => aluAdd x s
  | .adc => aluAdc x s
  | .sub => aluSub x s
  | .sbc => aluSbc x s
  | .and => aluAnd x s
  | .xor => aluXor x s
  | .or => aluOr x s
  | .cp => aluCp x s

/-- The shared operation behind each form. -/
def runForm (f : Form) (s : State) : Host.Outcome State Fault Refusal :=
  match f with
  | .nop => runNop s
  | .halt => runHalt s
  | .ldRegReg d r => loadRegReg d r s
  | .ldRegImm r => loadRegImm r s
  | .ldPairImm p => loadPairImm p s
  | .ldSpImm => loadSpImm s
  | .ldAFromHL => loadAFromHL s
  | .ldHLFromReg r => storeHLReg r s
  | .ldBCFromA => storePairA .BC s
  | .ldDEFromA => storePairA .DE s
  | .ldHLFromImm => storeHLImm s
  | .ldAbsFromA => storeAbsA s
  | .ldAbsFromSp => storeAbsSp s
  | .ldAFromAbs => loadAAbs s
  | .ldhImmFromA => storeHighImm s
  | .ldhAFromImm => loadHighImm s
  | .ldhCFromA => storeHighC s
  | .ldhAFromC => loadHighC s
  | .ldSpFromHL => loadSpHL s
  | .incReg r => incReg r s
  | .incHLMem => incMemHL s
  | .incPair p => incPair p s
  | .incSp => incSp s
  | .addHL p => addToHL p s
  | .ldHLSpOffset => loadHLSpOffset s
  | .push p => pushPair p s
  | .pushAF => pushAF s
  | .pop p => popPair p s
  | .popAF => popAF s
  | .alu o x => runAlu o x s

/-- `exec` of an instruction is its form's operation. -/
theorem exec_eq_runForm (i : Instr) (s : State) : exec i s = runForm i.form s := by
  cases i <;> rfl

end Sys2Proof.Machine
end

