-- ==== Sys2Proof/Laws/Step.lean ====
section
/-! SUPPORT. What a step can do, said once for each kind of turn; invariants are derived from these. -/

namespace Sys2Proof.Machine

/-! ### The waking environment -/

@[simp] theorem applyHavoc_regs (h : Option Havoc) (s : State) : (applyHavoc h s).regs = s.regs := by
  cases h with
  | none => rfl
  | some w => simp only [applyHavoc]; split <;> rfl
@[simp] theorem applyHavoc_flags (h : Option Havoc) (s : State) : (applyHavoc h s).flags = s.flags := by
  cases h with
  | none => rfl
  | some w => simp only [applyHavoc]; split <;> rfl
@[simp] theorem applyHavoc_m (h : Option Havoc) (s : State) : (applyHavoc h s).m = s.m := by
  cases h with
  | none => rfl
  | some w => simp only [applyHavoc]; split <;> rfl
@[simp] theorem applyHavoc_t (h : Option Havoc) (s : State) : (applyHavoc h s).t = s.t := by
  cases h with
  | none => rfl
  | some w => simp only [applyHavoc]; split <;> rfl
@[simp] theorem applyHavoc_clockM (h : Option Havoc) (s : State) : (applyHavoc h s).clockM = s.clockM := by
  cases h with
  | none => rfl
  | some w => simp only [applyHavoc]; split <;> rfl
@[simp] theorem applyHavoc_clockT (h : Option Havoc) (s : State) : (applyHavoc h s).clockT = s.clockT := by
  cases h with
  | none => rfl
  | some w => simp only [applyHavoc]; split <;> rfl
@[simp] theorem applyHavoc_halted (h : Option Havoc) (s : State) : (applyHavoc h s).halted = s.halted := by
  cases h with
  | none => rfl
  | some w => simp only [applyHavoc]; split <;> rfl
@[simp] theorem applyHavoc_stopped (h : Option Havoc) (s : State) : (applyHavoc h s).stopped = s.stopped := by
  cases h with
  | none => rfl
  | some w => simp only [applyHavoc]; split <;> rfl
@[simp] theorem applyHavoc_bus (h : Option Havoc) (s : State) : (applyHavoc h s).bus = s.bus := by
  cases h with
  | none => rfl
  | some w => simp only [applyHavoc]; split <;> rfl
@[simp] theorem applyHavoc_schedule (h : Option Havoc) (s : State) : (applyHavoc h s).schedule = s.schedule := by
  cases h with
  | none => rfl
  | some w => simp only [applyHavoc]; split <;> rfl
@[simp] theorem applyHavoc_answers (h : Option Havoc) (s : State) : (applyHavoc h s).answers = s.answers := by
  cases h with
  | none => rfl
  | some w => simp only [applyHavoc]; split <;> rfl
@[simp] theorem applyHavoc_params (h : Option Havoc) (s : State) : (applyHavoc h s).params = s.params := by
  cases h with
  | none => rfl
  | some w => simp only [applyHavoc]; split <;> rfl

theorem wf_applyHavoc (h : Option Havoc) {s : State} (hs : Memory.wf s.mem = true) :
    Memory.wf (applyHavoc h s).mem = true := by
  unfold applyHavoc
  cases h with
  | none => exact hs
  | some w =>
    simp only []
    split
    · exact State.wf_putByte _ _ (State.wf_putByte _ _ hs)
    · exact hs

/-! ### The memory's own reset -/

theorem Memory.wf_ofImage (image : List (Word × Byte)) : Memory.wf (Memory.ofImage image) = true := by
  induction image with
  | nil => rfl
  | cons e rest ih => exact Memory.wf_write e.2 ih e.1.isLt

/-- What an image's memory holds at an address. -/
theorem Memory.read_ofImage (image : List (Word × Byte)) (a : Word) :
    (Memory.ofImage image).read a.toNat = ((image.find? fun e => e.1 == a).map Prod.snd).getD 0x00 := by
  induction image with
  | nil => rfl
  | cons e rest ih =>
    obtain ⟨b, v⟩ := e
    simp only [Memory.ofImage, Memory.read_write, BitVec.toNat_inj, ih, List.find?_cons]
    by_cases h : b = a
    · simp [h]
    · have ha : ¬ a = b := fun e => h e.symm
      simp [ha, beq_eq_false_iff_ne.mpr h]

theorem wf_applyMemoryReset (image : List (Word × Byte)) (s : State) :
    Memory.wf (applyMemoryReset image s).mem = true := by
  simp only [applyMemoryReset]
  split
  · exact Memory.wf_nil
  · exact Memory.wf_ofImage image

/-! ### The turns -/

@[simp] theorem popTurn_regs (s : State) : s.popTurn.regs = s.regs := rfl
@[simp] theorem popTurn_flags (s : State) : s.popTurn.flags = s.flags := rfl
@[simp] theorem popTurn_pc (s : State) : s.popTurn.pc = s.pc := rfl
@[simp] theorem popTurn_sp (s : State) : s.popTurn.sp = s.sp := rfl
@[simp] theorem popTurn_m (s : State) : s.popTurn.m = s.m := rfl
@[simp] theorem popTurn_t (s : State) : s.popTurn.t = s.t := rfl
@[simp] theorem popTurn_clockM (s : State) : s.popTurn.clockM = s.clockM := rfl
@[simp] theorem popTurn_clockT (s : State) : s.popTurn.clockT = s.clockT := rfl
@[simp] theorem popTurn_halted (s : State) : s.popTurn.halted = s.halted := rfl
@[simp] theorem popTurn_stopped (s : State) : s.popTurn.stopped = s.stopped := rfl
@[simp] theorem popTurn_mem (s : State) : s.popTurn.mem = s.mem := rfl
@[simp] theorem popTurn_bus (s : State) : s.popTurn.bus = s.bus := rfl
@[simp] theorem popTurn_answers (s : State) : s.popTurn.answers = s.answers := rfl
@[simp] theorem popTurn_params (s : State) : s.popTurn.params = s.params := rfl
@[simp] theorem popTurn_schedule (s : State) : s.popTurn.schedule = s.schedule.tail := rfl

/-- A running core's step is the dispatch of the fetched byte, if the fetch is answered. -/
theorem step_of_aboutToStep {s : State} (h : AboutToStep s) (hc : s.canRead s.pc) :
    step s = dispatch (s.readValue s.pc) s.fetched := by
  obtain ⟨ht, hr⟩ := h
  have hc' : ({ s.popTurn with bus := [] } : State).canRead s.pc := hc
  have hr' : s.popTurn.runState = .running := hr
  simp only [step, ht, playTurn, coreTurn, hr', fetchOpcode]
  rw [fetchByte_answers hc']
  rfl

/-- A failed fetch is what the step answers. -/
theorem step_of_failed_fetch {s : State} (h : AboutToStep s) (hc : s.accessFails .read s.pc = true) :
    step s = .fault (.memoryAccess .read s.pc) := by
  obtain ⟨ht, hr⟩ := h
  have hc' : ({ s.popTurn with bus := [] } : State).accessFails .read s.pc = true := hc
  have hr' : s.popTurn.runState = .running := hr
  simp only [step, ht, playTurn, coreTurn, hr', fetchOpcode, fetchByte]
  erw [readByte_fails hc']
  rfl

theorem step_of_owner {s : State} {ev : Events} (h : nextTurn s = .owner ev) :
    step s = .next (applyEvents ev s.popTurn) := by
  simp only [step, h, playTurn]

theorem step_of_memoryReset {s : State} {image : List (Word × Byte)} (h : nextTurn s = .memoryReset image) :
    step s = .next (applyMemoryReset image s.popTurn) := by
  simp only [step, h, playTurn]

theorem step_of_idle {s : State} (h : nextTurn s = .core) (hr : s.runState ≠ .running) : step s = .next s.popTurn := by
  have hp : s.popTurn.runState = s.runState := rfl
  simp only [step, h, playTurn, coreTurn, hp]
  cases hs : s.runState
  · exact absurd hs hr
  · rfl
  · rfl

/-- Everything a step that answers a next state has done. -/
theorem step_cases {s t : State} (h : step s = .next t) :
    (∃ i, AboutToStep s ∧ s.canRead s.pc ∧ s.nextInstr = some i ∧ exec i s.fetched = .next t) ∨
    (nextTurn s = .core ∧ s.runState ≠ .running ∧ t = s.popTurn) ∨
    (∃ ev, nextTurn s = .owner ev ∧ t = applyEvents ev s.popTurn) ∨
    (∃ image, nextTurn s = .memoryReset image ∧ t = applyMemoryReset image s.popTurn) := by
  cases ht : nextTurn s with
  | core =>
    by_cases hr : s.runState = .running
    · left
      have ha : AboutToStep s := ⟨ht, hr⟩
      cases hc : s.accessFails .read s.pc
      · have he : s.fetched.decodeByte (s.readValue s.pc) = s.nextInstr := rfl
        rw [step_of_aboutToStep ha hc, dispatch, he] at h
        cases hd : s.nextInstr with
        | none => simp [hd] at h
        | some i => exact ⟨i, ha, hc, rfl, by simpa [hd] using h⟩
      · simp [step_of_failed_fetch ha hc] at h
    · right; left
      rw [step_of_idle ht hr] at h
      exact ⟨rfl, hr, by cases h; rfl⟩
  | owner ev =>
    right; right; left
    rw [step_of_owner ht] at h
    exact ⟨ev, rfl, by cases h; rfl⟩
  | memoryReset image =>
    right; right; right
    rw [step_of_memoryReset ht] at h
    exact ⟨image, rfl, by cases h; rfl⟩

end Sys2Proof.Machine
end

