-- ==== Sys2Proof/Laws/Effect.lean ====
section
/-! SUPPORT. Everything an instruction can do, said once: the accesses it makes in order, the state it leaves if the memory
collaborator answers them all, and the fault of the first one that fails otherwise. Later proofs cite `exec_effect` and
never unfold a meaning. -/

namespace Sys2Proof.Machine

/-- The result and the flags of each 8-bit ALU operation on `A`, the operand and the Carry flag before. -/
def aluCore (o : AluOp) (a x : Byte) (c : Bool) : Byte × Flags :=
  match o with
  | .add => addCore a x false
  | .adc => addCore a x c
  | .sub | .cp => subCore a x false
  | .sbc => subCore a x c
  | .and => andCore a x
  | .xor => xorCore a x
  | .or => orCore a x

/-- The register `A` after an 8-bit ALU operation: `CP` discards the result. -/
def aluResult (o : AluOp) (a x : Byte) (c : Bool) : Byte :=
  match o with
  | .cp => a
  | _ => (aluCore o a x c).1

/-- The state each form leaves when its accesses are answered. -/
def formNext (f : Form) (s : State) : State :=
  match f with
  | .nop => s.clock 1 4
  | .halt => (s.setHalted true).clock 1 4
  | .ldRegReg d r => (s.setReg d (s.reg r)).clock 1 4
  | .ldRegImm r => (s.afterFetch.setReg r s.imm0).clock 2 8
  | .ldPairImm p => ((s.afterFetch.afterFetch.setReg p.lo s.imm0).setReg p.hi s.imm1).clock 3 12
  | .ldSpImm => (s.afterFetch.afterFetch.setSp s.immWord).clock 3 12
  | .ldAFromHL => ((s.afterLoad (s.pair .HL)).setReg .A (s.readValue (s.pair .HL))).clock 1 8
  | .ldHLFromReg r => (s.afterStore (s.pair .HL) (s.reg r)).clock 1 8
  | .ldBCFromA => (s.afterStore (s.pair .BC) (s.reg .A)).clock 1 8
  | .ldDEFromA => (s.afterStore (s.pair .DE) (s.reg .A)).clock 1 8
  | .ldHLFromImm => (s.afterFetch.afterStore (s.pair .HL) s.imm0).clock 2 12
  | .ldAbsFromA => (s.afterFetch.afterFetch.afterStore s.immWord (s.reg .A)).clock 3 16
  | .ldAbsFromSp =>
    ((s.afterFetch.afterFetch.afterStore s.immWord (loByte s.sp)).afterStore (s.immWord + 1) (hiByte s.sp)).clock 3 20
  | .ldAFromAbs =>
    ((s.afterFetch.afterFetch.afterLoad s.immWord).setReg .A
      ((s.afterAccesses s.immReads).readValue s.immWord)).clock 3 16
  | .ldhImmFromA => (s.afterFetch.afterStore (highPage s.imm0) (s.reg .A)).clock 2 12
  | .ldhAFromImm =>
    ((s.afterFetch.afterLoad (highPage s.imm0)).setReg .A
      ((s.afterAccesses s.immRead).readValue (highPage s.imm0))).clock 2 12
  | .ldhCFromA => (s.afterStore (highPage (s.reg .C)) (s.reg .A)).clock 2 8
  | .ldhAFromC => ((s.afterLoad (highPage (s.reg .C))).setReg .A (s.readValue (highPage (s.reg .C)))).clock 2 8
  | .ldSpFromHL => (s.setSp (s.pair .HL)).clock 1 8
  | .alu o x =>
    (((s.afterOperand x).setReg .A (aluResult o (s.reg .A) (s.operandValue x) s.flags.c)).setFlags
      (aluCore o (s.reg .A) (s.operandValue x) s.flags.c).2).clock 1 (operandCycles x)
  | .incReg r => ((s.setReg r (incCore (s.reg r) s.flags).1).setFlags (incCore (s.reg r) s.flags).2).clock 1 4
  | .incHLMem =>
    (((s.afterLoad (s.pair .HL)).afterStore (s.pair .HL) (s.readValue (s.pair .HL) + 1)).setFlags
      (incCore (s.readValue (s.pair .HL)) s.flags).2).clock 1 12
  | .incPair p => (s.setPair p (s.pair p + 1)).clock 1 8
  | .incSp => (s.setSp (s.sp + 1)).clock 1 8
  | .addHL p =>
    ((s.setFlags (addWordCore (s.pair .HL) (s.pair p) s.flags).2).setPair .HL
      (addWordCore (s.pair .HL) (s.pair p) s.flags).1).clock 1 8
  | .ldHLSpOffset =>
    ((s.afterFetch.setFlags (spOffsetCore s.sp s.imm0 s.flags).2).setPair .HL
      (spOffsetCore s.sp s.imm0 s.flags).1).clock 2 12
  | .push p => ((s.afterPush (s.reg p.hi)).afterPush (s.reg p.lo)).clock 1 16
  | .pushAF => ((s.afterPush (s.reg .A)).afterPush s.readF).clock 1 16
  | .pop p =>
    (((((s.afterLoad s.sp).afterLoad (s.sp + 1)).setSp (s.sp + 2)).setReg p.lo (s.readValue s.sp)).setReg p.hi
      ((s.takeAnswer s.sp).readValue (s.sp + 1))).clock 1 12
  | .popAF =>
    (((((s.afterLoad s.sp).afterLoad (s.sp + 1)).setSp (s.sp + 2)).writeF (s.readValue s.sp)).setReg .A
      ((s.takeAnswer s.sp).readValue (s.sp + 1))).clock 1 12

/-- The first access of a row that the collaborator fails. -/
def State.firstFailing (s : State) : List Access → Option Access
  | [] => none
  | x :: rest => if s.accessFails x.kind x.addr then some x else (s.afterAccess x).firstFailing rest

/-- The next state if no access of the row fails, else the fault of the first that does. -/
def settle (s : State) (xs : List Access) (t : State) : Host.Outcome State Fault Refusal :=
  match s.firstFailing xs with
  | none => .next t
  | some x => .fault (.memoryAccess x.kind x.addr)

theorem settle_nil (s t : State) : settle s [] t = .next t := rfl

theorem settle_cons (s t : State) (x : Access) (rest : List Access) :
    settle s (x :: rest) t =
      if s.accessFails x.kind x.addr then .fault (.memoryAccess x.kind x.addr) else settle (s.afterAccess x) rest t := by
  unfold settle
  cases h : s.accessFails x.kind x.addr <;> simp [State.firstFailing, h]

/-- What a row of accesses leaves of the environment's answers is a matter of the parameters and the answers alone. -/
theorem afterAccess_answers_congr {s u : State} (hp : u.params = s.params) (ha : u.answers = s.answers) (x : Access) :
    (u.afterAccess x).params = (s.afterAccess x).params ∧ (u.afterAccess x).answers = (s.afterAccess x).answers := by
  have ho : ∀ a, u.isOpen a = s.isOpen a := fun a => by simp only [State.isOpen, hp]
  cases x with
  | read a v => exact ⟨hp, by simp only [State.afterAccess, State.takeAnswer, ho, ha]⟩
  | write a v => exact ⟨hp, by simp only [State.afterAccess, State.storeByte_answers, State.takeAnswer, ho, ha]⟩

theorem accessFails_congr {s u : State} (hp : u.params = s.params) (ha : u.answers = s.answers) (k : AccessKind) (a : Word) :
    u.accessFails k a = s.accessFails k a := by
  unfold State.accessFails State.answer State.isOpen
  rw [hp, ha]

theorem firstFailing_congr (xs : List Access) {s u : State} (hp : u.params = s.params) (ha : u.answers = s.answers) :
    u.firstFailing xs = s.firstFailing xs := by
  induction xs generalizing s u with
  | nil => rfl
  | cons x rest ih =>
    obtain ⟨h1, h2⟩ := afterAccess_answers_congr hp ha x
    simp only [State.firstFailing, accessFails_congr hp ha, ih h1 h2]

/-- How a row of accesses ends is a matter of the parameters and the answers alone. -/
theorem settle_congr {s u : State} (hp : u.params = s.params) (ha : u.answers = s.answers) (xs : List Access) (t : State) :
    settle u xs t = settle s xs t := by
  simp only [settle, firstFailing_congr xs hp ha]

/-- Accesses that are served do not fail. -/
theorem firstFailing_of_served {s : State} {xs : List Access} (h : Served s xs) : s.firstFailing xs = none := by
  induction xs generalizing s with
  | nil => rfl
  | cons x rest ih =>
    obtain ⟨hx, hr⟩ := h
    have hf : s.accessFails x.kind x.addr = false := by
      cases x with
      | read a v => exact hx.1
      | write a v => exact hx
    simp [State.firstFailing, hf, ih hr]

/-- If the accesses are served, the next state is what is answered. -/
theorem settle_served {s t : State} {xs : List Access} (h : Served s xs) : settle s xs t = .next t := by
  simp only [settle, firstFailing_of_served h]

/-- With the default memory, the next state is what is answered. -/
theorem settle_plain {s : State} (t : State) (h : s.plainMemory = true) (xs : List Access) : settle s xs t = .next t := by
  have hf : ∀ (xs : List Access) (s : State), s.plainMemory = true → s.firstFailing xs = none := by
    intro xs
    induction xs with
    | nil => exact fun _ _ => rfl
    | cons x rest ih =>
      intro s hs
      have hn : (s.afterAccess x).plainMemory = true := by cases x <;> exact hs
      simp [State.firstFailing, accessFails_of_plain hs, ih _ hn]
  simp only [settle, hf xs s h]

/-- Served accesses followed by one that fails end in its fault. -/
theorem settle_failing {s : State} (t : State) {xs ys : List Access} {x : Access} (h : Served s xs)
    (hf : (s.afterAccesses xs).accessFails x.kind x.addr = true) :
    settle s (xs ++ x :: ys) t = .fault (.memoryAccess x.kind x.addr) := by
  induction xs generalizing s with
  | nil => rw [List.nil_append, settle_cons]; exact if_pos hf
  | cons y rest ih =>
    have hy : s.accessFails y.kind y.addr = false := by
      cases y with
      | read a v => exact h.1.1
      | write a v => exact h.1
    rw [List.cons_append, settle_cons, hy]
    exact ih h.2 hf

/-- Two runs of the same accesses before the same collaborator end alike if their next states are related. -/
theorem settle_endAlike {R : State → State → Prop} {s u t t' : State} {xs : List Access}
    (hp : u.params = s.params) (ha : u.answers = s.answers) (hR : R t t') :
    EndAlike R (settle s xs t) (settle u xs t') := by
  rw [settle_congr hp ha]
  unfold settle
  split
  · exact hR
  · rfl

/-- A read before the rest of an instruction. -/
theorem andThen_readByte {s t : State} {a : Word} {rest : List Access}
    {k : Byte × State → Host.Outcome State Fault Refusal}
    (h : k (s.readValue a, s.afterLoad a) = settle (s.afterLoad a) rest t) :
    andThen (readByte a s) k = settle s (.read a (s.readValue a) :: rest) t := by
  rw [settle_cons]
  rcases readByte_cases a s with ⟨hc, e⟩ | ⟨hc, e⟩ <;> rw [e]
  · exact (h.trans
      (settle_congr (s := s.takeAnswer a) (u := s.afterLoad a) rfl rfl rest t)).trans
      (if_neg (ne_true_of_eq_false hc)).symm
  · exact (if_pos hc).symm

/-- A write before the rest of an instruction. -/
theorem andThen_writeByte {s t : State} {a : Word} {v : Byte} {rest : List Access}
    {k : State → Host.Outcome State Fault Refusal} (h : k (s.afterStore a v) = settle (s.afterStore a v) rest t) :
    andThen (writeByte a v s) k = settle s (.write a v :: rest) t := by
  rw [settle_cons]
  rcases writeByte_cases a v s with ⟨hc, e⟩ | ⟨hc, e⟩ <;> rw [e]
  · exact (h.trans
      (settle_congr (s := s.storeByte a v) (u := s.afterStore a v) rfl rfl rest t)).trans
      (if_neg (ne_true_of_eq_false hc)).symm
  · exact (if_pos hc).symm

theorem andThen_assoc {σ τ υ : Type} (o : Host.Outcome σ Fault Refusal) (k : σ → Host.Outcome τ Fault Refusal)
    (l : τ → Host.Outcome υ Fault Refusal) : andThen (andThen o k) l = andThen o fun x => andThen (k x) l := by
  cases o <;> rfl

/-- One immediate byte before the rest of an instruction. -/
theorem andThen_imm8 {s t : State} {rest : List Access} {k : Byte × State → Host.Outcome State Fault Refusal}
    (h : k (s.imm0, s.afterFetch) = settle s.afterFetch rest t) :
    andThen (imm8 s) k = settle s (.read s.pc s.imm0 :: rest) t := by
  refine (andThen_assoc _ _ _).trans (andThen_readByte ?_)
  exact h.trans (settle_congr (s := s.afterLoad s.pc) (u := s.afterFetch) rfl rfl rest t)

/-- Two immediate bytes before the rest of an instruction. -/
theorem andThen_imm16 {s t : State} {rest : List Access} {k : Word × State → Host.Outcome State Fault Refusal}
    (h : k (s.immWord, s.afterFetch.afterFetch) = settle s.afterFetch.afterFetch rest t) :
    andThen (imm16 s) k = settle s (.read s.pc s.imm0 :: .read (s.pc + 1) s.imm1 :: rest) t := by
  refine (andThen_assoc _ _ _).trans (andThen_imm8 ?_)
  refine (andThen_assoc _ _ _).trans (andThen_imm8 (s := s.afterFetch) ?_)
  exact h

/-- A word written before the rest of an instruction. -/
theorem andThen_writeWord {s t : State} {a v : Word} {rest : List Access}
    {k : State → Host.Outcome State Fault Refusal}
    (h : k ((s.afterStore a (loByte v)).afterStore (a + 1) (hiByte v)) =
      settle ((s.afterStore a (loByte v)).afterStore (a + 1) (hiByte v)) rest t) :
    andThen (writeWord a v s) k = settle s (.write a (loByte v) :: .write (a + 1) (hiByte v) :: rest) t := by
  exact (andThen_assoc _ _ _).trans (andThen_writeByte (andThen_writeByte h))

theorem sub_one_sub_one (v : Word) : v - 1 - 1 = v - 2 := by bv_omega

/-- Two bytes pushed before the rest of an instruction. -/
theorem andThen_pushBytes {s t : State} {hi lo : Byte} {rest : List Access}
    {k : State → Host.Outcome State Fault Refusal}
    (h : k ((s.afterPush hi).afterPush lo) = settle ((s.afterPush hi).afterPush lo) rest t) :
    andThen (pushBytes hi lo s) k = settle s (.write (s.sp - 1) hi :: .write (s.sp - 2) lo :: rest) t := by
  rw [← sub_one_sub_one]
  refine (andThen_assoc _ _ _).trans ?_
  refine (andThen_writeByte (s := s.setSp (s.sp - 1)) (rest := .write (s.sp - 1 - 1) lo :: rest) (t := t) ?_).trans
    (settle_congr (s := s) (u := s.setSp (s.sp - 1)) rfl rfl _ _)
  refine (andThen_writeByte (s := (s.afterPush hi).setSp (s.sp - 1 - 1)) (rest := rest) (t := t) h).trans
    (settle_congr (s := s.afterPush hi) (u := (s.afterPush hi).setSp (s.sp - 1 - 1)) rfl rfl _ _)

/-- Two bytes popped before the rest of an instruction. -/
theorem andThen_popBytes {s t : State} {k : (Byte × Byte) × State → Host.Outcome State Fault Refusal}
    (h : k (((s.takeAnswer s.sp).readValue (s.sp + 1), s.readValue s.sp),
      ((s.afterLoad s.sp).afterLoad (s.sp + 1)).setSp (s.sp + 2)) = .next t) :
    andThen (popBytes s) k = settle s s.popReads t := by
  refine (andThen_assoc _ _ _).trans (andThen_readByte ?_)
  refine (andThen_assoc _ _ _).trans ?_
  exact andThen_readByte (s := s.afterLoad s.sp) (rest := []) (t := t) h

theorem incCore_result (old : Byte) (f : Flags) : (incCore old f).1 = old + 1 := by
  apply BitVec.eq_of_toNat_eq
  simp [incCore]

theorem incMemHL_effect (s : State) :
    incMemHL s = settle s (s.accessesOf .incHLMem) (formNext .incHLMem s) := by
  refine andThen_readByte ?_
  simp only [incCore_result]
  exact andThen_writeByte (s := s.afterLoad (s.pair .HL)) (rest := []) rfl

/-- What every form does. -/
theorem runForm_effect (f : Form) (s : State) : runForm f s = settle s (s.accessesOf f) (formNext f s) := by
  cases f with
  | alu o x =>
    cases x with
    | reg r => cases o <;> rfl
    | memHL => cases o <;> exact andThen_readByte rfl
  | nop | halt | ldRegReg | ldSpFromHL | incReg | incPair | incSp | addHL => rfl
  | ldRegImm r => exact andThen_imm8 rfl
  | ldPairImm p => exact andThen_imm8 (andThen_imm8 rfl)
  | ldSpImm => exact andThen_imm16 rfl
  | ldAFromHL => exact andThen_readByte rfl
  | ldHLFromReg r => exact andThen_writeByte rfl
  | ldBCFromA => exact andThen_writeByte rfl
  | ldDEFromA => exact andThen_writeByte rfl
  | ldHLFromImm => exact andThen_imm8 (andThen_writeByte rfl)
  | ldAbsFromA => exact andThen_imm16 (andThen_writeByte rfl)
  | ldAbsFromSp => exact andThen_imm16 (andThen_writeWord rfl)
  | ldAFromAbs => exact andThen_imm16 (andThen_readByte rfl)
  | ldhImmFromA => exact andThen_imm8 (andThen_writeByte rfl)
  | ldhAFromImm => exact andThen_imm8 (andThen_readByte rfl)
  | ldhCFromA => exact andThen_writeByte rfl
  | ldhAFromC => exact andThen_readByte rfl
  | incHLMem => exact incMemHL_effect s
  | ldHLSpOffset => exact andThen_imm8 rfl
  | push p => exact andThen_pushBytes rfl
  | pushAF => exact andThen_pushBytes rfl
  | pop p => exact andThen_popBytes rfl
  | popAF => exact andThen_popBytes rfl

/-- What every instruction does: its accesses in order, and the state it leaves if none fails. -/
theorem exec_effect (i : Instr) (s : State) : exec i s = settle s (s.accessesOf i.form) (formNext i.form s) :=
  (exec_eq_runForm i s).trans (runForm_effect i.form s)

/-- An instruction that answers a next state has left the state of its form. -/
theorem exec_next {i : Instr} {s t : State} (h : exec i s = .next t) : t = formNext i.form s := by
  rw [exec_effect, settle] at h
  split at h <;> cases h
  rfl

/-! ### What the state of a form leaves alone -/

theorem formNext_stopped (f : Form) (s : State) : (formNext f s).stopped = s.stopped := by
  cases f <;> simp [formNext]

theorem formNext_schedule (f : Form) (s : State) : (formNext f s).schedule = s.schedule := by
  cases f <;> simp [formNext]

theorem formNext_params (f : Form) (s : State) : (formNext f s).params = s.params := by
  cases f <;> simp [formNext]

/-- Only `HALT` sets `halted`, and none clears it. -/
theorem formNext_halted (f : Form) (s : State) : (formNext f s).halted = (decide (f = .halt) || s.halted) := by
  cases f <;> simp [formNext]

/-- The accesses a form makes are the ones its next state shows. -/
theorem formNext_accessed (f : Form) (s : State) : Accessed (s.accessesOf f) s (formNext f s) := by
  cases f with
  | alu o x => cases x <;> exact ⟨by simp [formNext, State.accessesOf], rfl⟩
  | push p => exact ⟨by rw [State.accessesOf, ← sub_one_sub_one]; simp [formNext], by rw [State.accessesOf, ← sub_one_sub_one]; rfl⟩
  | pushAF => exact ⟨by rw [State.accessesOf, ← sub_one_sub_one]; simp [formNext], by rw [State.accessesOf, ← sub_one_sub_one]; rfl⟩
  | _ => exact ⟨by simp [formNext, State.accessesOf, State.immRead, State.immReads, State.popReads] <;> rfl, rfl⟩

/-- An instruction whose accesses are served completes, in the state of its form and with exactly those accesses. -/
theorem exec_served {i : Instr} {s : State} {xs : List Access} (h : Served s xs) (e : s.accessesOf i.form = xs) :
    exec i s = .next (formNext i.form s) ∧ Accessed xs s (formNext i.form s) := by
  subst e
  exact ⟨by rw [exec_effect, settle_served h], formNext_accessed _ _⟩

/-- Memory stays in canonical form. -/
theorem formNext_wf (f : Form) {s : State} (h : Memory.wf s.mem = true) : Memory.wf (formNext f s).mem = true := by
  cases f <;> simp [formNext, State.wf_afterStore, State.wf_afterPush, h]

end Sys2Proof.Machine
end

