-- ==== Sys2Proof/Laws/PerInstr.lean ====
section
/-! SUPPORT. Statements made for each instruction. `DecodeEncode`: the opcode map of R69 and the byte built from the formats of
R62 to R66 agree. -/

namespace Sys2Proof.Laws.DecodeEncode

/-- The decoder reads back the instruction whose opcode byte the encoder built. -/
def Statement (i : Instr) : Prop := decodeOpcode (encodeOpcode i) = some i

theorem nop : Statement .nop := rfl
theorem halt : Statement .halt := rfl
theorem ld_B_B : Statement .ld_B_B := rfl
theorem ld_B_C : Statement .ld_B_C := rfl
theorem ld_B_D : Statement .ld_B_D := rfl
theorem ld_B_E : Statement .ld_B_E := rfl
theorem ld_B_H : Statement .ld_B_H := rfl
theorem ld_B_L : Statement .ld_B_L := rfl
theorem ld_B_A : Statement .ld_B_A := rfl
theorem ld_C_B : Statement .ld_C_B := rfl
theorem ld_C_C : Statement .ld_C_C := rfl
theorem ld_C_D : Statement .ld_C_D := rfl
theorem ld_C_E : Statement .ld_C_E := rfl
theorem ld_C_H : Statement .ld_C_H := rfl
theorem ld_C_L : Statement .ld_C_L := rfl
theorem ld_C_A : Statement .ld_C_A := rfl
theorem ld_D_B : Statement .ld_D_B := rfl
theorem ld_D_C : Statement .ld_D_C := rfl
theorem ld_D_D : Statement .ld_D_D := rfl
theorem ld_D_E : Statement .ld_D_E := rfl
theorem ld_D_H : Statement .ld_D_H := rfl
theorem ld_D_L : Statement .ld_D_L := rfl
theorem ld_D_A : Statement .ld_D_A := rfl
theorem ld_E_B : Statement .ld_E_B := rfl
theorem ld_E_C : Statement .ld_E_C := rfl
theorem ld_E_D : Statement .ld_E_D := rfl
theorem ld_E_E : Statement .ld_E_E := rfl
theorem ld_E_H : Statement .ld_E_H := rfl
theorem ld_E_L : Statement .ld_E_L := rfl
theorem ld_E_A : Statement .ld_E_A := rfl
theorem ld_H_B : Statement .ld_H_B := rfl
theorem ld_H_C : Statement .ld_H_C := rfl
theorem ld_H_D : Statement .ld_H_D := rfl
theorem ld_H_E : Statement .ld_H_E := rfl
theorem ld_H_H : Statement .ld_H_H := rfl
theorem ld_H_L : Statement .ld_H_L := rfl
theorem ld_H_A : Statement .ld_H_A := rfl
theorem ld_L_B : Statement .ld_L_B := rfl
theorem ld_L_C : Statement .ld_L_C := rfl
theorem ld_L_D : Statement .ld_L_D := rfl
theorem ld_L_E : Statement .ld_L_E := rfl
theorem ld_L_H : Statement .ld_L_H := rfl
theorem ld_L_L : Statement .ld_L_L := rfl
theorem ld_L_A : Statement .ld_L_A := rfl
theorem ld_A_B : Statement .ld_A_B := rfl
theorem ld_A_C : Statement .ld_A_C := rfl
theorem ld_A_D : Statement .ld_A_D := rfl
theorem ld_A_E : Statement .ld_A_E := rfl
theorem ld_A_H : Statement .ld_A_H := rfl
theorem ld_A_L : Statement .ld_A_L := rfl
theorem ld_A_A : Statement .ld_A_A := rfl
theorem ld_B_n : Statement .ld_B_n := rfl
theorem ld_C_n : Statement .ld_C_n := rfl
theorem ld_D_n : Statement .ld_D_n := rfl
theorem ld_E_n : Statement .ld_E_n := rfl
theorem ld_H_n : Statement .ld_H_n := rfl
theorem ld_L_n : Statement .ld_L_n := rfl
theorem ld_A_n : Statement .ld_A_n := rfl
theorem ld_BC_nn : Statement .ld_BC_nn := rfl
theorem ld_DE_nn : Statement .ld_DE_nn := rfl
theorem ld_HL_nn : Statement .ld_HL_nn := rfl
theorem ld_SP_nn : Statement .ld_SP_nn := rfl
theorem ld_A_mHL : Statement .ld_A_mHL := rfl
theorem ld_mHL_B : Statement .ld_mHL_B := rfl
theorem ld_mHL_C : Statement .ld_mHL_C := rfl
theorem ld_mHL_D : Statement .ld_mHL_D := rfl
theorem ld_mHL_E : Statement .ld_mHL_E := rfl
theorem ld_mHL_H : Statement .ld_mHL_H := rfl
theorem ld_mHL_L : Statement .ld_mHL_L := rfl
theorem ld_mHL_A : Statement .ld_mHL_A := rfl
theorem ld_mBC_A : Statement .ld_mBC_A := rfl
theorem ld_mDE_A : Statement .ld_mDE_A := rfl
theorem ld_mHL_n : Statement .ld_mHL_n := rfl
theorem ld_mnn_A : Statement .ld_mnn_A := rfl
theorem ld_mnn_SP : Statement .ld_mnn_SP := rfl
theorem ld_A_mnn : Statement .ld_A_mnn := rfl
theorem ldh_mn_A : Statement .ldh_mn_A := rfl
theorem ldh_A_mn : Statement .ldh_A_mn := rfl
theorem ld_mC_A : Statement .ld_mC_A := rfl
theorem ld_A_mC : Statement .ld_A_mC := rfl
theorem ld_SP_HL : Statement .ld_SP_HL := rfl
theorem add_A_B : Statement .add_A_B := rfl
theorem add_A_C : Statement .add_A_C := rfl
theorem add_A_D : Statement .add_A_D := rfl
theorem add_A_E : Statement .add_A_E := rfl
theorem add_A_H : Statement .add_A_H := rfl
theorem add_A_L : Statement .add_A_L := rfl
theorem add_A_A : Statement .add_A_A := rfl
theorem add_A_mHL : Statement .add_A_mHL := rfl
theorem adc_A_B : Statement .adc_A_B := rfl
theorem adc_A_C : Statement .adc_A_C := rfl
theorem adc_A_D : Statement .adc_A_D := rfl
theorem adc_A_E : Statement .adc_A_E := rfl
theorem adc_A_H : Statement .adc_A_H := rfl
theorem adc_A_L : Statement .adc_A_L := rfl
theorem adc_A_A : Statement .adc_A_A := rfl
theorem adc_A_mHL : Statement .adc_A_mHL := rfl
theorem sub_B : Statement .sub_B := rfl
theorem sub_C : Statement .sub_C := rfl
theorem sub_D : Statement .sub_D := rfl
theorem sub_E : Statement .sub_E := rfl
theorem sub_H : Statement .sub_H := rfl
theorem sub_L : Statement .sub_L := rfl
theorem sub_A : Statement .sub_A := rfl
theorem sub_mHL : Statement .sub_mHL := rfl
theorem sbc_A_B : Statement .sbc_A_B := rfl
theorem sbc_A_C : Statement .sbc_A_C := rfl
theorem sbc_A_D : Statement .sbc_A_D := rfl
theorem sbc_A_E : Statement .sbc_A_E := rfl
theorem sbc_A_H : Statement .sbc_A_H := rfl
theorem sbc_A_L : Statement .sbc_A_L := rfl
theorem sbc_A_A : Statement .sbc_A_A := rfl
theorem sbc_A_mHL : Statement .sbc_A_mHL := rfl
theorem and_B : Statement .and_B := rfl
theorem and_C : Statement .and_C := rfl
theorem and_D : Statement .and_D := rfl
theorem and_E : Statement .and_E := rfl
theorem and_H : Statement .and_H := rfl
theorem and_L : Statement .and_L := rfl
theorem and_A : Statement .and_A := rfl
theorem and_mHL : Statement .and_mHL := rfl
theorem xor_B : Statement .xor_B := rfl
theorem xor_C : Statement .xor_C := rfl
theorem xor_D : Statement .xor_D := rfl
theorem xor_E : Statement .xor_E := rfl
theorem xor_H : Statement .xor_H := rfl
theorem xor_L : Statement .xor_L := rfl
theorem xor_A : Statement .xor_A := rfl
theorem xor_mHL : Statement .xor_mHL := rfl
theorem or_B : Statement .or_B := rfl
theorem or_C : Statement .or_C := rfl
theorem or_D : Statement .or_D := rfl
theorem or_E : Statement .or_E := rfl
theorem or_H : Statement .or_H := rfl
theorem or_L : Statement .or_L := rfl
theorem or_A : Statement .or_A := rfl
theorem or_mHL : Statement .or_mHL := rfl
theorem cp_B : Statement .cp_B := rfl
theorem cp_C : Statement .cp_C := rfl
theorem cp_D : Statement .cp_D := rfl
theorem cp_E : Statement .cp_E := rfl
theorem cp_H : Statement .cp_H := rfl
theorem cp_L : Statement .cp_L := rfl
theorem cp_A : Statement .cp_A := rfl
theorem cp_mHL : Statement .cp_mHL := rfl
theorem inc_B : Statement .inc_B := rfl
theorem inc_C : Statement .inc_C := rfl
theorem inc_D : Statement .inc_D := rfl
theorem inc_E : Statement .inc_E := rfl
theorem inc_H : Statement .inc_H := rfl
theorem inc_L : Statement .inc_L := rfl
theorem inc_A : Statement .inc_A := rfl
theorem inc_mHL : Statement .inc_mHL := rfl
theorem inc_BC : Statement .inc_BC := rfl
theorem inc_DE : Statement .inc_DE := rfl
theorem inc_HL : Statement .inc_HL := rfl
theorem inc_SP : Statement .inc_SP := rfl
theorem add_HL_BC : Statement .add_HL_BC := rfl
theorem add_HL_DE : Statement .add_HL_DE := rfl
theorem add_HL_HL : Statement .add_HL_HL := rfl
theorem ld_HL_SPe : Statement .ld_HL_SPe := rfl
theorem push_BC : Statement .push_BC := rfl
theorem push_DE : Statement .push_DE := rfl
theorem push_HL : Statement .push_HL := rfl
theorem push_AF : Statement .push_AF := rfl
theorem pop_BC : Statement .pop_BC := rfl
theorem pop_DE : Statement .pop_DE := rfl
theorem pop_HL : Statement .pop_HL := rfl
theorem pop_AF : Statement .pop_AF := rfl

theorem all (i : Instr) : Statement i := by
  cases i <;> rfl

end Sys2Proof.Laws.DecodeEncode
end

