-- ==== Sys2Proof/Tests/Slice0.lean ====
section
/-! SUPPORT. The model's own tests. Expected results are the spec's: the encodings of spec/opcode_table.json, the worked
examples and derived vectors of spec/95_test_vectors.md, or sums done by hand from the rule named. The witnesses at the end
show, for each statement with hypotheses, a concrete case that meets them together, with the boundary values of its clauses. -/

namespace Sys2Proof.Tests

open Sys2Proof Sys2Proof.Machine

/-! ### Well-formedness: the number of immediate bytes (R61) -/

/-- NOP takes no immediate byte. -/
theorem test_wellFormed_refuses_nop_with_immediate : (Line.mk .nop [0x00]).wellFormed = false := by decide

/-- LD A,n takes one. -/
theorem test_wellFormed_refuses_ld_A_n_without_immediate : (Line.mk .ld_A_n []).wellFormed = false := by decide

/-- LD (nn),SP takes two. -/
theorem test_wellFormed_refuses_ld_mnn_SP_with_one_or_three :
    (Line.mk .ld_mnn_SP [0x23]).wellFormed = false ∧ (Line.mk .ld_mnn_SP [0x23, 0xC1, 0x00]).wellFormed = false := by decide

theorem test_wellFormed_accepts_the_right_number :
    (Line.mk .nop []).wellFormed = true ∧ (Line.mk .ld_A_n [0x2A]).wellFormed = true ∧
      (Line.mk .ld_mnn_SP [0x23, 0xC1]).wellFormed = true := by decide

/-! ### Decoding: every row of the opcode table, its word as the table's encoding writes it (R69) -/

/-- Every word of the list decodes to the instruction beside it and to nothing else. -/
def decodesAll (rows : List (Byte × Instr)) : Bool := rows.all fun r => decodeOpcode r.1 == some r.2

/-- Format IMPL. -/
theorem test_decode_impl :
    decodesAll
      [(0b00000000, .nop), (0b00000010, .ld_mBC_A), (0b00010010, .ld_mDE_A), (0b00110100, .inc_mHL),
         (0b01110110, .halt), (0b01111110, .ld_A_mHL), (0b11100010, .ld_mC_A), (0b11110010, .ld_A_mC),
         (0b11111001, .ld_SP_HL)] = true := by decide

/-- Format P_I16. -/
theorem test_decode_p_i16 :
    decodesAll
      [(0b00000001, .ld_BC_nn), (0b00010001, .ld_DE_nn), (0b00100001, .ld_HL_nn), (0b00110001, .ld_SP_nn)] = true := by decide

/-- Format P. -/
theorem test_decode_p :
    decodesAll
      [(0b00000011, .inc_BC), (0b00001001, .add_HL_BC), (0b00010011, .inc_DE), (0b00011001, .add_HL_DE),
         (0b00100011, .inc_HL), (0b00101001, .add_HL_HL), (0b00110011, .inc_SP)] = true := by decide

/-- Format R. -/
theorem test_decode_r :
    decodesAll
      [(0b00000100, .inc_B), (0b00001100, .inc_C), (0b00010100, .inc_D), (0b00011100, .inc_E),
         (0b00100100, .inc_H), (0b00101100, .inc_L), (0b00111100, .inc_A)] = true := by decide

/-- Format R_I8. -/
theorem test_decode_r_i8 :
    decodesAll
      [(0b00000110, .ld_B_n), (0b00001110, .ld_C_n), (0b00010110, .ld_D_n), (0b00011110, .ld_E_n),
         (0b00100110, .ld_H_n), (0b00101110, .ld_L_n), (0b00110110, .ld_mHL_n), (0b00111110, .ld_A_n)] = true := by decide

/-- Format I16. -/
theorem test_decode_i16 :
    decodesAll
      [(0b00001000, .ld_mnn_SP), (0b11101010, .ld_mnn_A), (0b11111010, .ld_A_mnn)] = true := by decide

/-- Format R_R, LD B. -/
theorem test_decode_ld_b :
    decodesAll
      [(0b01000000, .ld_B_B), (0b01000001, .ld_B_C), (0b01000010, .ld_B_D), (0b01000011, .ld_B_E),
         (0b01000100, .ld_B_H), (0b01000101, .ld_B_L), (0b01000111, .ld_B_A)] = true := by decide

/-- Format R_R, LD C. -/
theorem test_decode_ld_c :
    decodesAll
      [(0b01001000, .ld_C_B), (0b01001001, .ld_C_C), (0b01001010, .ld_C_D), (0b01001011, .ld_C_E),
         (0b01001100, .ld_C_H), (0b01001101, .ld_C_L), (0b01001111, .ld_C_A)] = true := by decide

/-- Format R_R, LD D. -/
theorem test_decode_ld_d :
    decodesAll
      [(0b01010000, .ld_D_B), (0b01010001, .ld_D_C), (0b01010010, .ld_D_D), (0b01010011, .ld_D_E),
         (0b01010100, .ld_D_H), (0b01010101, .ld_D_L), (0b01010111, .ld_D_A)] = true := by decide

/-- Format R_R, LD E. -/
theorem test_decode_ld_e :
    decodesAll
      [(0b01011000, .ld_E_B), (0b01011001, .ld_E_C), (0b01011010, .ld_E_D), (0b01011011, .ld_E_E),
         (0b01011100, .ld_E_H), (0b01011101, .ld_E_L), (0b01011111, .ld_E_A)] = true := by decide

/-- Format R_R, LD H. -/
theorem test_decode_ld_h :
    decodesAll
      [(0b01100000, .ld_H_B), (0b01100001, .ld_H_C), (0b01100010, .ld_H_D), (0b01100011, .ld_H_E),
         (0b01100100, .ld_H_H), (0b01100101, .ld_H_L), (0b01100111, .ld_H_A)] = true := by decide

/-- Format R_R, LD L. -/
theorem test_decode_ld_l :
    decodesAll
      [(0b01101000, .ld_L_B), (0b01101001, .ld_L_C), (0b01101010, .ld_L_D), (0b01101011, .ld_L_E),
         (0b01101100, .ld_L_H), (0b01101101, .ld_L_L), (0b01101111, .ld_L_A)] = true := by decide

/-- Format R_R, LD (HL). -/
theorem test_decode_ld_mHL :
    decodesAll
      [(0b01110000, .ld_mHL_B), (0b01110001, .ld_mHL_C), (0b01110010, .ld_mHL_D), (0b01110011, .ld_mHL_E),
         (0b01110100, .ld_mHL_H), (0b01110101, .ld_mHL_L), (0b01110111, .ld_mHL_A)] = true := by decide

/-- Format R_R, LD A. -/
theorem test_decode_ld_a :
    decodesAll
      [(0b01111000, .ld_A_B), (0b01111001, .ld_A_C), (0b01111010, .ld_A_D), (0b01111011, .ld_A_E),
         (0b01111100, .ld_A_H), (0b01111101, .ld_A_L), (0b01111111, .ld_A_A)] = true := by decide

/-- Format ALU_R, ADD. -/
theorem test_decode_alu_add :
    decodesAll
      [(0b10000000, .add_A_B), (0b10000001, .add_A_C), (0b10000010, .add_A_D), (0b10000011, .add_A_E),
         (0b10000100, .add_A_H), (0b10000101, .add_A_L), (0b10000110, .add_A_mHL), (0b10000111, .add_A_A)] = true := by decide

/-- Format ALU_R, ADC. -/
theorem test_decode_alu_adc :
    decodesAll
      [(0b10001000, .adc_A_B), (0b10001001, .adc_A_C), (0b10001010, .adc_A_D), (0b10001011, .adc_A_E),
         (0b10001100, .adc_A_H), (0b10001101, .adc_A_L), (0b10001110, .adc_A_mHL), (0b10001111, .adc_A_A)] = true := by decide

/-- Format ALU_R, SUB. -/
theorem test_decode_alu_sub :
    decodesAll
      [(0b10010000, .sub_B), (0b10010001, .sub_C), (0b10010010, .sub_D), (0b10010011, .sub_E),
         (0b10010100, .sub_H), (0b10010101, .sub_L), (0b10010110, .sub_mHL), (0b10010111, .sub_A)] = true := by decide

/-- Format ALU_R, SBC. -/
theorem test_decode_alu_sbc :
    decodesAll
      [(0b10011000, .sbc_A_B), (0b10011001, .sbc_A_C), (0b10011010, .sbc_A_D), (0b10011011, .sbc_A_E),
         (0b10011100, .sbc_A_H), (0b10011101, .sbc_A_L), (0b10011110, .sbc_A_mHL), (0b10011111, .sbc_A_A)] = true := by decide

/-- Format ALU_R, AND. -/
theorem test_decode_alu_and :
    decodesAll
      [(0b10100000, .and_B), (0b10100001, .and_C), (0b10100010, .and_D), (0b10100011, .and_E),
         (0b10100100, .and_H), (0b10100101, .and_L), (0b10100110, .and_mHL), (0b10100111, .and_A)] = true := by decide

/-- Format ALU_R, XOR. -/
theorem test_decode_alu_xor :
    decodesAll
      [(0b10101000, .xor_B), (0b10101001, .xor_C), (0b10101010, .xor_D), (0b10101011, .xor_E),
         (0b10101100, .xor_H), (0b10101101, .xor_L), (0b10101110, .xor_mHL), (0b10101111, .xor_A)] = true := by decide

/-- Format ALU_R, OR. -/
theorem test_decode_alu_or :
    decodesAll
      [(0b10110000, .or_B), (0b10110001, .or_C), (0b10110010, .or_D), (0b10110011, .or_E),
         (0b10110100, .or_H), (0b10110101, .or_L), (0b10110110, .or_mHL), (0b10110111, .or_A)] = true := by decide

/-- Format ALU_R, CP. -/
theorem test_decode_alu_cp :
    decodesAll
      [(0b10111000, .cp_B), (0b10111001, .cp_C), (0b10111010, .cp_D), (0b10111011, .cp_E),
         (0b10111100, .cp_H), (0b10111101, .cp_L), (0b10111110, .cp_mHL), (0b10111111, .cp_A)] = true := by decide

/-- Format Q. -/
theorem test_decode_q :
    decodesAll
      [(0b11000001, .pop_BC), (0b11000101, .push_BC), (0b11010001, .pop_DE), (0b11010101, .push_DE),
         (0b11100001, .pop_HL), (0b11100101, .push_HL), (0b11110001, .pop_AF), (0b11110101, .push_AF)] = true := by decide

/-- Format I8. -/
theorem test_decode_i8 :
    decodesAll
      [(0b11100000, .ldh_mn_A), (0b11110000, .ldh_A_mn)] = true := by decide

/-- Format E8. -/
theorem test_decode_e8 :
    decodesAll
      [(0b11111000, .ld_HL_SPe)] = true := by decide

/-- The unassigned bytes that section 2.1 names, each beside an assigned neighbour (R70). -/
theorem test_decode_unassigned :
    ([0x05, 0x0A, 0x10, 0x39, 0x46, 0x6E, 0xC6, 0xCB, 0xD9, 0xE8, 0xE9, 0xFE, 0xFF] : List Byte).all
      (fun op => decodeOpcode op == none) = true := by decide

/-- A line cut short, an empty list and an unassigned byte are rejected by name (R61, R70). -/
theorem test_decode_rejects_by_name :
    (match decode [0xEA, 0x34] with | .error e => e == .truncated .ld_mnn_A | .ok _ => false) = true ∧
      (match decode [] with | .error e => e == .empty | .ok _ => false) = true ∧
      (match decode [0xCB, 0x00] with | .error e => e == .unassignedOpcode 0xCB | .ok _ => false) = true := by decide

/-- `EA 34 C2` is LD (0xC234),A, and the bytes after it are left (section 2.9). -/
theorem test_decode_line :
    (match decode [0xEA, 0x34, 0xC2, 0x76] with
      | .ok (l, rest) => l == ⟨.ld_mnn_A, [0x34, 0xC2]⟩ && rest == [0x76]
      | .error _ => false) = true := by decide

/-! ### One instruction or one step on a small state -/

/-- A RUNNING core, all else as after reset. -/
def cpu : State := { State.reset with stopped := false }

/-- `cpu` with the registers `A B C D E H L` and the byte `F`. -/
def cpuWith (a b c d e h l f : Byte) : State :=
  { cpu with regs := { a, b, c, d, e, h, l }, flags := Flags.ofByte f }

/-- Whether an outcome is a next state with a property. -/
def endsIn (o : Host.Outcome State Fault Refusal) (p : State → Bool) : Bool :=
  match o with
  | .next t => p t
  | _ => false

/-- The cost recorded and the totals. -/
def cost (t : State) : Nat × Nat × Nat × Nat := (t.m, t.t, t.clockM, t.clockT)

/-- V10: NOP costs 1/4 and nothing else changes. -/
theorem test_nop :
    endsIn (exec .nop (cpuWith 0x00 0x00 0x00 0x00 0x00 0x00 0x00 0xF0))
      (fun t => cost t == (1, 4, 1, 4) && t.pc == 0x0000 && t.readF == 0xF0 && t.bus == []) = true := by decide

/-- V10: HALT sets halted and costs 1/4. -/
theorem test_halt :
    endsIn (exec .halt cpu)
      (fun t => t.halted && !t.stopped && cost t == (1, 4, 1, 4)) = true := by decide

/-- Section 2.2: at handler level the counters move and `stopped` stays. -/
theorem test_nop_of_a_stopped_core_at_handler_level :
    endsIn (exec .nop State.reset)
      (fun t => t.stopped && cost t == (1, 4, 1, 4) && t.pc == 0x0000) = true := by decide

/-- Section 2.9. -/
theorem test_ld_B_C :
    endsIn (exec .ld_B_C (cpuWith 0x00 0x12 0x34 0x00 0x00 0x00 0x00 0x00))
      (fun t => t.reg .B == 0x34 && t.reg .C == 0x34 && cost t == (1, 4, 1, 4) && t.bus == []) = true := by decide

/-- Section 2.9. -/
theorem test_ld_A_A :
    endsIn (exec .ld_A_A (cpuWith 0x99 0x00 0x00 0x00 0x00 0x00 0x00 0xF0))
      (fun t => t.reg .A == 0x99 && t.readF == 0xF0) = true := by decide

/-- Section 2.9. -/
theorem test_ld_H_L :
    endsIn (exec .ld_H_L (cpuWith 0x00 0x00 0x00 0x00 0x00 0x12 0x34 0x00))
      (fun t => t.reg .H == 0x34 && t.reg .L == 0x34) = true := by decide

/-- Section 2.9. -/
theorem test_ld_A_n :
    endsIn (exec .ld_A_n { cpu with pc := 0x0001, mem := [(0x0001, 0x2A)] })
      (fun t => t.reg .A == 0x2A && t.pc == 0x0002 && t.bus == [.read 0x0001 0x2A] && cost t == (2, 8, 2, 8)) = true := by decide

/-- Section 2.9: the immediate at 0xFFFF. -/
theorem test_ld_B_n_wraps :
    endsIn (exec .ld_B_n { cpu with pc := 0xFFFF, mem := [(0xFFFF, 0x77)] })
      (fun t => t.reg .B == 0x77 && t.pc == 0x0000) = true := by decide

/-- Section 2.9. -/
theorem test_ld_BC_nn :
    endsIn (exec .ld_BC_nn { cpu with pc := 0x0001, mem := [(0x0001, 0x34), (0x0002, 0x12)] })
      (fun t => t.reg .B == 0x12 && t.reg .C == 0x34 && t.pc == 0x0003 && t.bus == [.read 0x0001 0x34, .read 0x0002 0x12] && cost t == (3, 12, 3, 12)) = true := by decide

/-- Section 2.9: the immediates at 0xFFFF and 0x0000. -/
theorem test_ld_HL_nn_wraps :
    endsIn (exec .ld_HL_nn { cpu with pc := 0xFFFF, mem := [(0x0000, 0xAB), (0xFFFF, 0xCD)] })
      (fun t => t.reg .H == 0xAB && t.reg .L == 0xCD && t.pc == 0x0001) = true := by decide

/-- Section 2.9. -/
theorem test_ld_SP_nn :
    endsIn (exec .ld_SP_nn { cpu with pc := 0x0001, mem := [(0x0001, 0xFE), (0x0002, 0xFF)] })
      (fun t => t.sp == 0xFFFE && t.pc == 0x0003 && cost t == (3, 12, 3, 12)) = true := by decide

/-- Section 2.9. -/
theorem test_ld_A_mHL :
    endsIn (exec .ld_A_mHL { cpuWith 0x00 0x00 0x00 0x00 0x00 0xC0 0x10 0x00 with mem := [(0xC010, 0x99)] })
      (fun t => t.reg .A == 0x99 && t.bus == [.read 0xC010 0x99] && cost t == (1, 8, 1, 8)) = true := by decide

/-- Section 2.9. -/
theorem test_ld_mHL_D :
    endsIn (exec .ld_mHL_D (cpuWith 0x00 0x00 0x00 0x12 0x00 0xC0 0x00 0x00))
      (fun t => t.byteAt 0xC000 == 0x12 && t.bus == [.write 0xC000 0x12] && cost t == (1, 8, 1, 8)) = true := by decide

/-- Section 2.9. -/
theorem test_ld_mHL_H :
    endsIn (exec .ld_mHL_H (cpuWith 0x00 0x00 0x00 0x00 0x00 0xC0 0x05 0x00))
      (fun t => t.byteAt 0xC005 == 0xC0) = true := by decide

/-- Section 2.9. -/
theorem test_ld_mBC_A :
    endsIn (exec .ld_mBC_A (cpuWith 0x5A 0xC1 0x02 0x00 0x00 0x00 0x00 0x00))
      (fun t => t.byteAt 0xC102 == 0x5A && t.bus == [.write 0xC102 0x5A]) = true := by decide

/-- Section 2.9. -/
theorem test_ld_mDE_A :
    endsIn (exec .ld_mDE_A (cpuWith 0xA5 0x00 0x00 0xC1 0x03 0x00 0x00 0x00))
      (fun t => t.byteAt 0xC103 == 0xA5 && t.bus == [.write 0xC103 0xA5]) = true := by decide

/-- Section 2.9. -/
theorem test_ld_mHL_n :
    endsIn (exec .ld_mHL_n { cpuWith 0x00 0x00 0x00 0x00 0x00 0xC0 0x00 0x00 with pc := 0x0001, mem := [(0x0001, 0x7F)] })
      (fun t => t.byteAt 0xC000 == 0x7F && t.pc == 0x0002 && t.bus == [.read 0x0001 0x7F, .write 0xC000 0x7F] && cost t == (2, 12, 2, 12)) = true := by decide

/-- Section 2.9. -/
theorem test_ld_mnn_A :
    endsIn (exec .ld_mnn_A { cpuWith 0x42 0x00 0x00 0x00 0x00 0x00 0x00 0x00 with pc := 0x0001, mem := [(0x0001, 0x34), (0x0002, 0xC2)] })
      (fun t => t.byteAt 0xC234 == 0x42 && t.pc == 0x0003 && cost t == (3, 16, 3, 16)) = true := by decide

/-- Section 2.9. -/
theorem test_ld_mnn_SP :
    endsIn (exec .ld_mnn_SP { cpu with sp := 0xD0FE, pc := 0x0001, mem := [(0x0001, 0x23), (0x0002, 0xC1)] })
      (fun t => t.byteAt 0xC123 == 0xFE && t.byteAt 0xC124 == 0xD0 && t.bus == [.read 0x0001 0x23, .read 0x0002 0xC1, .write 0xC123 0xFE, .write 0xC124 0xD0] && cost t == (3, 20, 3, 20)) = true := by decide

/-- Section 2.9: the second address wraps to 0x0000. -/
theorem test_ld_mnn_SP_wraps :
    endsIn (exec .ld_mnn_SP { cpu with sp := 0xABCD, pc := 0x0001, mem := [(0x0001, 0xFF), (0x0002, 0xFF)] })
      (fun t => t.byteAt 0xFFFF == 0xCD && t.byteAt 0x0000 == 0xAB && t.pc == 0x0003) = true := by decide

/-- Section 2.9. -/
theorem test_ld_A_mnn :
    endsIn (exec .ld_A_mnn { cpu with pc := 0x0001, mem := [(0x0001, 0x34), (0x0002, 0xC2), (0xC234, 0x42)] })
      (fun t => t.reg .A == 0x42 && t.pc == 0x0003 && t.bus == [.read 0x0001 0x34, .read 0x0002 0xC2, .read 0xC234 0x42] && cost t == (3, 16, 3, 16)) = true := by decide

/-- Section 2.9. -/
theorem test_ldh_mn_A :
    endsIn (exec .ldh_mn_A { cpuWith 0x13 0x00 0x00 0x00 0x00 0x00 0x00 0x00 with pc := 0x0001, mem := [(0x0001, 0x80)] })
      (fun t => t.byteAt 0xFF80 == 0x13 && t.pc == 0x0002 && cost t == (2, 12, 2, 12)) = true := by decide

/-- Section 2.9: offset 0xFF. -/
theorem test_ldh_mn_A_top :
    endsIn (exec .ldh_mn_A { cpuWith 0x13 0x00 0x00 0x00 0x00 0x00 0x00 0x00 with pc := 0x0001, mem := [(0x0001, 0xFF)] })
      (fun t => t.byteAt 0xFFFF == 0x13 && t.bus == [.read 0x0001 0xFF, .write 0xFFFF 0x13]) = true := by decide

/-- Section 2.9. -/
theorem test_ldh_A_mn :
    endsIn (exec .ldh_A_mn { cpu with pc := 0x0001, mem := [(0x0001, 0x44), (0xFF44, 0x90)] })
      (fun t => t.reg .A == 0x90 && t.pc == 0x0002 && cost t == (2, 12, 2, 12)) = true := by decide

/-- Section 2.9. -/
theorem test_ld_mC_A :
    endsIn (exec .ld_mC_A (cpuWith 0x77 0x00 0x10 0x00 0x00 0x00 0x00 0x00))
      (fun t => t.byteAt 0xFF10 == 0x77 && t.bus == [.write 0xFF10 0x77] && cost t == (2, 8, 2, 8) && t.pc == 0x0000) = true := by decide

/-- Section 2.9: offset 0x00. -/
theorem test_ld_mC_A_low :
    endsIn (exec .ld_mC_A (cpuWith 0x77 0x00 0x00 0x00 0x00 0x00 0x00 0x00))
      (fun t => t.byteAt 0xFF00 == 0x77) = true := by decide

/-- Section 2.9: offset 0xFF. -/
theorem test_ld_A_mC :
    endsIn (exec .ld_A_mC { cpuWith 0x00 0x00 0xFF 0x00 0x00 0x00 0x00 0x00 with mem := [(0xFFFF, 0x1F)] })
      (fun t => t.reg .A == 0x1F && t.bus == [.read 0xFFFF 0x1F] && cost t == (2, 8, 2, 8)) = true := by decide

/-- Section 2.9. -/
theorem test_ld_SP_HL :
    endsIn (exec .ld_SP_HL (cpuWith 0x00 0x00 0x00 0x00 0x00 0xDF 0xF0 0x00))
      (fun t => t.sp == 0xDFF0 && cost t == (1, 8, 1, 8)) = true := by decide

/-- Section 2.3: half-carry without carry. -/
theorem test_add_A_B :
    endsIn (exec .add_A_B (cpuWith 0x7F 0x01 0x00 0x00 0x00 0x00 0x00 0x00))
      (fun t => t.reg .A == 0x80 && t.readF == 0x20 && cost t == (1, 4, 1, 4)) = true := by decide

/-- Section 2.3. -/
theorem test_add_A_B_ignores_carry_in :
    endsIn (exec .add_A_B (cpuWith 0x00 0x00 0x00 0x00 0x00 0x00 0x00 0x10))
      (fun t => t.reg .A == 0x00 && t.readF == 0x80 && cost t == (1, 4, 1, 4)) = true := by decide

/-- Section 2.3: the same register as both operands. -/
theorem test_add_A_A :
    endsIn (exec .add_A_A (cpuWith 0x88 0x00 0x00 0x00 0x00 0x00 0x00 0x00))
      (fun t => t.reg .A == 0x10 && t.readF == 0x30) = true := by decide

/-- Section 2.3. -/
theorem test_add_A_mHL :
    endsIn (exec .add_A_mHL { cpuWith 0x01 0x00 0x00 0x00 0x00 0xC0 0x00 0x00 with mem := [(0xC000, 0x0F)] })
      (fun t => t.reg .A == 0x10 && t.readF == 0x20 && t.bus == [.read 0xC000 0x0F] && cost t == (1, 8, 1, 8)) = true := by decide

/-- Section 2.3: the carry in makes the half-carry. -/
theorem test_adc_A_B :
    endsIn (exec .adc_A_B (cpuWith 0xE1 0x0F 0x00 0x00 0x00 0x00 0x00 0x10))
      (fun t => t.reg .A == 0xF1 && t.readF == 0x20 && cost t == (1, 4, 1, 4)) = true := by decide

/-- Section 2.3. -/
theorem test_adc_A_B_all :
    endsIn (exec .adc_A_B (cpuWith 0x00 0xFF 0x00 0x00 0x00 0x00 0x00 0x10))
      (fun t => t.reg .A == 0x00 && t.readF == 0xB0 && cost t == (1, 4, 1, 4)) = true := by decide

/-- Section 2.3. -/
theorem test_adc_A_A :
    endsIn (exec .adc_A_A (cpuWith 0x80 0x00 0x00 0x00 0x00 0x00 0x00 0x10))
      (fun t => t.reg .A == 0x01 && t.readF == 0x10) = true := by decide

/-- Section 2.4: borrow without half-borrow. -/
theorem test_sub_B :
    endsIn (exec .sub_B (cpuWith 0x3E 0x40 0x00 0x00 0x00 0x00 0x00 0x00))
      (fun t => t.reg .A == 0xFE && t.readF == 0x50 && cost t == (1, 4, 1, 4)) = true := by decide

/-- Section 2.4. -/
theorem test_sub_B_ignores_carry_in :
    endsIn (exec .sub_B (cpuWith 0x01 0x00 0x00 0x00 0x00 0x00 0x00 0x10))
      (fun t => t.reg .A == 0x01 && t.readF == 0x40 && cost t == (1, 4, 1, 4)) = true := by decide

/-- Section 2.4. -/
theorem test_sub_A :
    endsIn (exec .sub_A (cpuWith 0x5C 0x00 0x00 0x00 0x00 0x00 0x00 0x10))
      (fun t => t.reg .A == 0x00 && t.readF == 0xC0) = true := by decide

/-- Section 2.4: half-borrow by the carry in alone, no borrow. -/
theorem test_sbc_A_B :
    endsIn (exec .sbc_A_B (cpuWith 0x10 0x0F 0x00 0x00 0x00 0x00 0x00 0x10))
      (fun t => t.reg .A == 0x00 && t.readF == 0xE0 && cost t == (1, 4, 1, 4)) = true := by decide

/-- Section 2.4: all four flags set. -/
theorem test_sbc_A_B_all_flags :
    endsIn (exec .sbc_A_B (cpuWith 0x00 0xFF 0x00 0x00 0x00 0x00 0x00 0x10))
      (fun t => t.reg .A == 0x00 && t.readF == 0xF0 && cost t == (1, 4, 1, 4)) = true := by decide

/-- Section 2.4. -/
theorem test_sbc_A_A :
    endsIn (exec .sbc_A_A (cpuWith 0x3B 0x00 0x00 0x00 0x00 0x00 0x00 0x10))
      (fun t => t.reg .A == 0xFF && t.readF == 0x70) = true := by decide

/-- Section 2.4: the flags of SUB, `A` unchanged. -/
theorem test_cp_B :
    endsIn (exec .cp_B (cpuWith 0x3C 0x40 0x00 0x00 0x00 0x00 0x00 0x00))
      (fun t => t.reg .A == 0x3C && t.readF == 0x50 && cost t == (1, 4, 1, 4)) = true := by decide

/-- Section 2.4. -/
theorem test_cp_A :
    endsIn (exec .cp_A (cpuWith 0x3C 0x00 0x00 0x00 0x00 0x00 0x00 0x30))
      (fun t => t.reg .A == 0x3C && t.readF == 0xC0) = true := by decide

/-- R139, by hand: 0x3C against 0x2F (section 2.4), read from memory. -/
theorem test_cp_mHL :
    endsIn (exec .cp_mHL { cpuWith 0x3C 0x00 0x00 0x00 0x00 0xC0 0x00 0x00 with mem := [(0xC000, 0x2F)] })
      (fun t => t.reg .A == 0x3C && t.readF == 0x60 && cost t == (1, 8, 1, 8)) = true := by decide

/-- Section 2.5, from F = 0xF0. -/
theorem test_and_B :
    endsIn (exec .and_B (cpuWith 0xF0 0x3C 0x00 0x00 0x00 0x00 0x00 0xF0))
      (fun t => t.reg .A == 0x30 && t.readF == 0x20) = true := by decide

/-- Section 2.5: zero. -/
theorem test_and_A :
    endsIn (exec .and_A (cpuWith 0x00 0x00 0x00 0x00 0x00 0x00 0x00 0xF0))
      (fun t => t.reg .A == 0x00 && t.readF == 0xA0) = true := by decide

/-- Section 2.5, from F = 0xF0. -/
theorem test_xor_B :
    endsIn (exec .xor_B (cpuWith 0xFF 0x0F 0x00 0x00 0x00 0x00 0x00 0xF0))
      (fun t => t.reg .A == 0xF0 && t.readF == 0x00) = true := by decide

/-- Section 2.5. -/
theorem test_xor_A :
    endsIn (exec .xor_A (cpuWith 0x5A 0x00 0x00 0x00 0x00 0x00 0x00 0xF0))
      (fun t => t.reg .A == 0x00 && t.readF == 0x80) = true := by decide

/-- Section 2.5, from F = 0xF0. -/
theorem test_or_B :
    endsIn (exec .or_B (cpuWith 0x50 0x05 0x00 0x00 0x00 0x00 0x00 0xF0))
      (fun t => t.reg .A == 0x55 && t.readF == 0x00) = true := by decide

/-- R137, by hand from section 2.5: 0x80 or 0x80. -/
theorem test_or_mHL :
    endsIn (exec .or_mHL { cpuWith 0x80 0x00 0x00 0x00 0x00 0xC0 0x00 0xF0 with mem := [(0xC000, 0x80)] })
      (fun t => t.reg .A == 0x80 && t.readF == 0x00 && cost t == (1, 8, 1, 8)) = true := by decide

/-- V3: 255 yields 0, Z and Hf set, N cleared, Cf kept. -/
theorem test_inc_B :
    endsIn (exec .inc_B (cpuWith 0x00 0xFF 0x00 0x00 0x00 0x00 0x00 0x50))
      (fun t => t.reg .B == 0x00 && t.readF == 0xB0 && cost t == (1, 4, 1, 4)) = true := by decide

/-- Section 2.6. -/
theorem test_inc_B_half :
    endsIn (exec .inc_B (cpuWith 0x00 0x0F 0x00 0x00 0x00 0x00 0x00 0x10))
      (fun t => t.reg .B == 0x10 && t.readF == 0x30) = true := by decide

/-- Section 2.6: no carry into the pair. -/
theorem test_inc_H :
    endsIn (exec .inc_H (cpuWith 0x00 0x00 0x00 0x00 0x00 0xFF 0xFF 0x00))
      (fun t => t.reg .H == 0x00 && t.reg .L == 0xFF) = true := by decide

/-- Section 2.6. -/
theorem test_inc_mHL :
    endsIn (exec .inc_mHL { cpuWith 0x00 0x00 0x00 0x00 0x00 0xC0 0x00 0x10 with mem := [(0xC000, 0xFF)] })
      (fun t => t.byteAt 0xC000 == 0x00 && t.mem == [] && t.readF == 0xB0 && t.bus == [.read 0xC000 0xFF, .write 0xC000 0x00] && cost t == (1, 12, 1, 12)) = true := by decide

/-- Section 2.7. -/
theorem test_inc_BC :
    endsIn (exec .inc_BC (cpuWith 0x00 0x12 0xFF 0x00 0x00 0x00 0x00 0xF0))
      (fun t => t.reg .B == 0x13 && t.reg .C == 0x00 && t.readF == 0xF0 && cost t == (1, 8, 1, 8)) = true := by decide

/-- Section 2.7. -/
theorem test_inc_DE :
    endsIn (exec .inc_DE (cpuWith 0x00 0x00 0x00 0x00 0x00 0x00 0x00 0x80))
      (fun t => t.reg .D == 0x00 && t.reg .E == 0x01 && t.readF == 0x80) = true := by decide

/-- Section 2.7. -/
theorem test_inc_HL :
    endsIn (exec .inc_HL (cpuWith 0x00 0x00 0x00 0x00 0x00 0x7F 0xFF 0x10))
      (fun t => t.reg .H == 0x80 && t.reg .L == 0x00 && t.readF == 0x10) = true := by decide

/-- Section 2.7. -/
theorem test_inc_SP :
    endsIn (exec .inc_SP { cpu with sp := 0xFFFF })
      (fun t => t.sp == 0x0000 && t.readF == 0x00 && cost t == (1, 8, 1, 8)) = true := by decide

/-- Section 2.7: `Z` kept, `N` cleared. -/
theorem test_add_HL_BC :
    endsIn (exec .add_HL_BC (cpuWith 0x00 0x00 0x01 0x00 0x00 0xFF 0xFF 0xC0))
      (fun t => t.reg .H == 0x00 && t.reg .L == 0x00 && t.readF == 0xB0 && cost t == (1, 8, 1, 8)) = true := by decide

/-- Section 2.7: no carry at bit 7 is a flag. -/
theorem test_add_HL_DE :
    endsIn (exec .add_HL_DE (cpuWith 0x00 0x00 0x00 0x00 0x01 0x00 0xFF 0xF0))
      (fun t => t.reg .H == 0x01 && t.reg .L == 0x00 && t.readF == 0x80) = true := by decide

/-- Section 2.7. -/
theorem test_add_HL_HL :
    endsIn (exec .add_HL_HL (cpuWith 0x00 0x00 0x00 0x00 0x00 0x88 0x00 0x00))
      (fun t => t.reg .H == 0x10 && t.reg .L == 0x00 && t.readF == 0x30) = true := by decide

/-- V5: SP = 1000, e = 254. -/
theorem test_ld_HL_SPe :
    endsIn (exec .ld_HL_SPe { cpu with sp := 0x03E8, mem := [(0x0000, 0xFE)] })
      (fun t => t.reg .H == 0x03 && t.reg .L == 0xE6 && t.readF == 0x30 && t.sp == 0x03E8 && t.pc == 0x0001 && cost t == (2, 12, 2, 12)) = true := by decide

/-- Section 2.8: 0x12F0 - 16 from F = 0x40. -/
theorem test_ld_HL_SPe_keeps_Z_and_N :
    endsIn (exec .ld_HL_SPe { cpuWith 0x00 0x00 0x00 0x00 0x00 0x00 0x00 0x40 with sp := 0x12F0, mem := [(0x0000, 0xF0)] })
      (fun t => t.reg .H == 0x12 && t.reg .L == 0xE0 && t.readF == 0x50) = true := by decide

/-- V4: (5, 6) from SP = 10. -/
theorem test_push_BC :
    endsIn (exec .push_BC { cpuWith 0x00 0x05 0x06 0x00 0x00 0x00 0x00 0x00 with sp := 0x000A })
      (fun t => t.byteAt 0x0009 == 0x05 && t.byteAt 0x0008 == 0x06 && t.sp == 0x0008 && cost t == (1, 16, 1, 16)) = true := by decide

/-- Section 2.10: from SP = 0. -/
theorem test_push_DE_wraps :
    endsIn (exec .push_DE (cpuWith 0x00 0x00 0x00 0xAA 0xBB 0x00 0x00 0x00))
      (fun t => t.byteAt 0xFFFF == 0xAA && t.byteAt 0xFFFE == 0xBB && t.sp == 0xFFFE) = true := by decide

/-- Section 2.10: from SP = 1. -/
theorem test_push_HL_wraps :
    endsIn (exec .push_HL { cpuWith 0x00 0x00 0x00 0x00 0x00 0x01 0x02 0x00 with sp := 0x0001 })
      (fun t => t.bus == [.write 0x0000 0x01, .write 0xFFFF 0x02] && t.sp == 0xFFFF) = true := by decide

/-- Section 2.10. -/
theorem test_push_AF :
    endsIn (exec .push_AF { cpuWith 0x9C 0x00 0x00 0x00 0x00 0x00 0x00 0xB0 with sp := 0xD000 })
      (fun t => t.byteAt 0xCFFF == 0x9C && t.byteAt 0xCFFE == 0xB0) = true := by decide

/-- Section 2.10: from SP = 0xFFFF. -/
theorem test_pop_BC_wraps :
    endsIn (exec .pop_BC { cpu with sp := 0xFFFF, mem := [(0x0000, 0x22), (0xFFFF, 0x11)] })
      (fun t => t.reg .B == 0x22 && t.reg .C == 0x11 && t.sp == 0x0001 && t.bus == [.read 0xFFFF 0x11, .read 0x0000 0x22] && cost t == (1, 12, 1, 12)) = true := by decide

/-- Section 2.10. -/
theorem test_pop_DE :
    endsIn (exec .pop_DE { cpu with sp := 0xCFFE, mem := [(0xCFFE, 0x34), (0xCFFF, 0x12)] })
      (fun t => t.reg .D == 0x12 && t.reg .E == 0x34 && t.sp == 0xD000) = true := by decide

/-- Section 2.10: SP ends at 0. -/
theorem test_pop_HL_wraps :
    endsIn (exec .pop_HL { cpu with sp := 0xFFFE, mem := [(0xFFFE, 0x11), (0xFFFF, 0x22)] })
      (fun t => t.reg .H == 0x22 && t.reg .L == 0x11 && t.sp == 0x0000) = true := by decide

/-- Section 2.10: the low nibble of the popped byte is dropped. -/
theorem test_pop_AF :
    endsIn (exec .pop_AF { cpu with sp := 0xCFFE, mem := [(0xCFFE, 0x5F), (0xCFFF, 0x9C)] })
      (fun t => t.reg .A == 0x9C && t.readF == 0x50 && t.sp == 0xD000) = true := by decide

/-! ### Steps and events -/

/-- Section 2.2. -/
theorem test_step_nop :
    endsIn (step { cpu with pc := 0x0100, clockM := 7, clockT := 28 })
      (fun t => t.pc == 0x0101 && cost t == (1, 4, 8, 32) && t.bus == [.read 0x0100 0x00]) = true := by decide

/-- Section 2.2. -/
theorem test_step_wraps_pc :
    endsIn (step { cpu with pc := 0xFFFF })
      (fun t => t.pc == 0x0000 && cost t == (1, 4, 1, 4)) = true := by decide

/-- Section 2.2. -/
theorem test_step_halt :
    endsIn (step { cpu with pc := 0x0008, mem := [(0x0008, 0x76)] })
      (fun t => t.pc == 0x0009 && t.halted) = true := by decide

/-- Section 2.2: a step from the reset state is not enabled; nothing at all changes. -/
theorem test_step_of_reset_changes_nothing : endsIn (step State.reset) (fun t => t == State.reset) = true := by decide

/-- Section 2.2: 0xCB is refused by name. -/
theorem test_step_refuses_0xCB :
    (match step { cpu with mem := [(0x0000, 0xCB)] } with
      | .refused r => r == .unassignedOpcode 0xCB
      | _ => false) = true := by decide

/-- Section 2.2: Wake clears `halted` and leaves `PC` and the counters. -/
theorem test_wake :
    endsIn (step { cpu with halted := true, pc := 0x0009, clockM := 3, schedule := [.owner { wake := true }] })
      (fun t => t == { cpu with pc := 0x0009, clockM := 3 }) = true := by decide

/-- Section 2.2: Start clears `stopped`; all else as reset. -/
theorem test_start :
    endsIn (step { State.reset with schedule := [.owner { start := true }] }) (fun t => t == cpu) = true := by decide

/-- Section 2.2: Reset from a used state; memory is unchanged. -/
theorem test_reset_event :
    endsIn (step { cpuWith 0x55 0 0 0 0 0 0 0xF0 with
        pc := 0x1234, sp := 0xCFFE, clockM := 100, clockT := 412, halted := true, mem := [(0xC000, 0x13)],
        schedule := [.owner { reset := true }] })
      (fun t => t == { State.reset with mem := [(0xC000, 0x13)] }) = true := by decide

/-- R196: the memory's own reset clears memory and nothing of the core. -/
theorem test_memory_reset :
    endsIn (step { cpuWith 1 2 3 4 5 6 7 0xF0 with mem := [(0xC000, 0x13)], schedule := [.memoryReset [(0xC000, 0x55)]] })
      (fun t => t == cpuWith 1 2 3 4 5 6 7 0xF0) = true := by decide

/-- Log 25: with another `P_MEM` the memory's own reset leaves the turn's image, 0x00 where it has none. -/
theorem test_memory_reset_of_another_memory :
    endsIn (step { cpu with
        params := { openRanges := [⟨0, 0⟩] }, mem := [(0xC000, 0x13)], schedule := [.memoryReset [(0xFFFF, 0x55)]] })
      (fun t => t.byteAt 0xC000 == 0x00 && t.byteAt 0xFFFF == 0x55) = true := by decide

/-- R49: an open range answers a read as the environment says, one answer an access. -/
theorem test_open_range_read :
    endsIn (exec .ld_A_mHL { cpu with
        params := { openRanges := [⟨0, 0⟩] }, mem := [(0x0000, 0x13)], answers := [.byte 0x77, .byte 0x99] })
      (fun t => t.reg .A == 0x77 && t.answers == [.byte 0x99] && t.bus == [.read 0x0000 0x77]) = true := by decide

/-- R49: an open range takes a write; the RAM beneath is left alone. -/
theorem test_open_range_write :
    endsIn (exec .ld_mHL_A { cpuWith 0x42 0 0 0 0 0 0 0 with
        params := { openRanges := [⟨0, 0⟩] }, mem := [(0x0000, 0x13)], answers := [.byte 0x00] })
      (fun t => t.byteAt 0x0000 == 0x13 && t.answers == [] && t.bus == [.write 0x0000 0x42]) = true := by decide

/-- R51: an access that the environment fails ends the instruction in the fault of that access. -/
theorem test_open_range_failure :
    (match exec .ld_SP_nn { cpu with params := { openRanges := [⟨1, 1⟩] }, answers := [.fail] } with
      | .fault f => f == .memoryAccess .read 0x0001
      | _ => false) = true := by decide

/-- D2: under another dispatch table a byte runs what that table says. -/
theorem test_replaced_table :
    endsIn (step { cpu with mem := [(0x0000, 0xCB)], params := { table := some [(0xCB, .halt)] } })
      (fun t => t.halted) = true := by decide

/-- R181: with `P_WAKE_HAVOC` the environment that wakes the core writes `PC`, `SP` and two bytes at the new `SP`. -/
theorem test_wake_havoc :
    endsIn (step { cpu with
        halted := true, params := { wakeHavoc := true },
        schedule := [.owner { wake := true, havoc := some ⟨0x0040, 0xFFFF, 0x34, 0x12⟩ }] })
      (fun t => t == { cpu with
        pc := 0x0040, sp := 0xFFFF, mem := [(0x0000, 0x12), (0xFFFF, 0x34)],
        params := { wakeHavoc := true } }) = true := by decide

/-- R51: a failing write ends the instruction in the fault of that access. -/
theorem test_failing_write :
    (match exec .push_BC { cpu with sp := 0xD000, params := { memFails := [⟨0xCFFE, 0xCFFE, false, true⟩] } } with
      | .fault f => f == .memoryAccess .write 0xCFFE
      | _ => false) = true := by decide

/-- R22: with `P_CLOCK_BITS` of 4 a total of 14 plus 3 wraps to 1, and 8 plus 12 to 4. -/
theorem test_finite_clock :
    endsIn (exec .ld_SP_nn { cpu with clockM := 14, clockT := 8, params := { clockBits := some 4 } })
      (fun t => cost t == (3, 12, 1, 4)) = true := by decide

/-- Section 3, P4: an instruction across the top of the address space. -/
theorem test_step_across_the_top :
    endsIn (step { cpu with pc := 0xFFFE, mem := [(0x0000, 0x12), (0xFFFE, 0x01), (0xFFFF, 0x34)] })
      (fun t => t.reg .B == 0x12 && t.reg .C == 0x34 && t.pc == 0x0001) = true := by decide

/-- V7: pairs round trip, and `AF <- 0x12FF` reads back 0x12F0. -/
theorem test_pairs :
    ((cpu.setPair .HL 0xBEEF).reg .H == 0xBE && (cpu.setPair .HL 0xBEEF).reg .L == 0xEF &&
      (cpuWith 0 0x12 0x34 0 0 0 0 0).pair .BC == 0x1234 && (cpu.setPairAF 0x12FF).pairAF == 0x12F0) = true := by decide

/-- Writing the byte an unlisted address reads as takes its entry off the list, and entries stay in order. -/
theorem test_memory_is_canonical :
    Memory.write [(3, 0x01)] 3 0x00 = [] ∧ Memory.write [(3, 0x01)] 2 0x05 = [(2, 0x05), (3, 0x01)] ∧
      Memory.wf [(3, 0x01), (3, 0x02)] = false ∧ Memory.wf [(3, 0x00)] = false ∧ Memory.wf [(65536, 0x01)] = false := by
  decide

/-- A word placed for the next step is run by it as the first instruction after reset: `EA 34 C2`. -/
theorem test_withFetchWord :
    endsIn (step (State.reset.withFetchWord 24 0xC234EA))
      (fun t => t.pc == 0x0003 && cost t == (3, 16, 3, 16) &&
        t.bus == [.read 0x0000 0xEA, .read 0x0001 0x34, .read 0x0002 0xC2, .write 0xC234 0x00]) = true := by decide

/-! ### Witnesses: the hypotheses of each statement are met together, at the boundary values of its clauses -/

/-- A core whose memory fails every write at 0xCFFE and every read at 0x0000. -/
def failing : State :=
  { cpu with params := { memFails := [⟨0xCFFE, 0xCFFE, false, true⟩, ⟨0x0000, 0x0000, true, false⟩] } }

/-- A core whose memory is an environment at every address, with these answers. -/
def device (answers : List Answer) : State := { cpu with params := { openRanges := [⟨0, 0xFFFF⟩] }, answers := answers }

/-- A core at the top of the address space: an instruction at 0xFFFE, its immediates at 0xFFFF and 0x0000. -/
def atTop : State := { cpu with pc := 0xFFFE, mem := [(0x0000, 0x12), (0xFFFE, 0x01), (0xFFFF, 0x34)] }

/-- The same between the opcode fetch and the immediates. -/
def inTop : State := { atTop with pc := 0xFFFF }

/-- A core about to play a turn of the owner. -/
def withEvents (ev : Events) : State := { cpu with halted := true, schedule := [.owner ev] }

theorem witness_DecodeOfEncodeGivesTheLineBack :
    (Line.mk .ld_mnn_SP [0xFF, 0xFF]).wellFormed = true ∧ (Line.mk .halt []).wellFormed = true := by decide

theorem witness_DecodedBytesAreTheLinesEncoding :
    decode [0x08, 0xFF, 0xFF, 0x76] = .ok (⟨.ld_mnn_SP, [0xFF, 0xFF]⟩, [0x76]) := rfl

/-- At 0xFFFF, an unassigned byte of the default table; and a replaced table, under which NOP's byte is unassigned. -/
theorem witness_UnassignedOpcodesAreRefused :
    let s : State := { cpu with pc := 0xFFFF, mem := [(0xFFFF, 0xFF)] }
    let u : State := { cpu with params := { table := some [(0xFF, .halt)] } }
    (AboutToStep s ∧ s.canRead s.pc ∧ s.params.table = none ∧ s.readValue s.pc ∈ unassignedBytes ∧ s.nextInstr = none) ∧
      AboutToStep u ∧ u.canRead u.pc ∧ u.nextInstr = none :=
  ⟨⟨⟨rfl, rfl⟩, rfl, rfl, by decide, rfl⟩, ⟨rfl, rfl⟩, rfl, rfl⟩

theorem witness_StepRunsTheDecodedInstruction :
    AboutToStep atTop ∧ atTop.canRead atTop.pc ∧ atTop.nextInstr = some .ld_BC_nn ∧ atTop.params.table = none :=
  ⟨⟨rfl, rfl⟩, rfl, rfl, rfl⟩

theorem witness_IdleCoreChangesNothing :
    (nextTurn State.reset = .core ∧ State.reset.runState ≠ .running) ∧
      nextTurn { cpu with halted := true } = .core ∧ ({ cpu with halted := true } : State).runState ≠ .running :=
  ⟨⟨rfl, by decide⟩, rfl, by decide⟩

/-- A range that fails, and an open range whose environment fails the access. -/
theorem witness_FailedFetchFaultsBeforeDecode :
    (AboutToStep failing ∧ failing.accessFails .read failing.pc = true) ∧
      AboutToStep (device [.fail]) ∧ (device [.fail]).accessFails .read (device [.fail]).pc = true :=
  ⟨⟨⟨rfl, rfl⟩, rfl⟩, ⟨rfl, rfl⟩, rfl⟩

theorem witness_StepAdvancesPcByTheLength :
    AboutToStep atTop ∧ atTop.nextInstr = some .ld_BC_nn ∧ ∃ t, step atTop = .next t := ⟨⟨rfl, rfl⟩, rfl, _, rfl⟩

/-- Both sides of the disjunction happen, and the default memory is one of the states of the second clause. -/
theorem witness_EveryInstructionCompletesUnlessMemoryFails :
    exec .ld_A_mHL failing = .fault (.memoryAccess .read 0x0000) ∧ (∃ t, exec .nop failing = .next t) ∧
      cpu.plainMemory = true := ⟨rfl, ⟨_, rfl⟩, rfl⟩

/-- All accesses served, by plain RAM and by an open range; and one failing of each kind: an immediate, the second immediate,
an operand, the second byte of a PUSH after the first was served. -/
theorem witness_FailingAccessFaultsTheInstruction :
    Served inTop (inTop.accessesOf Instr.ld_BC_nn.form) ∧
      Served (device [.byte 1, .byte 2]) ((device [.byte 1, .byte 2]).accessesOf Instr.ld_BC_nn.form) ∧
      (failing.accessesOf Instr.ld_A_n.form = [] ++ .read 0x0000 0x00 :: [] ∧
        (failing.afterAccesses []).accessFails .read 0x0000 = true) ∧
      ((device [.byte 1, .fail]).accessesOf Instr.ld_SP_nn.form = [.read 0x0000 0x01] ++ .read 0x0001 0x00 :: [] ∧
        Served (device [.byte 1, .fail]) [.read 0x0000 0x01] ∧
        ((device [.byte 1, .fail]).afterAccesses [.read 0x0000 0x01]).accessFails .read 0x0001 = true) ∧
      (failing.accessesOf Instr.add_A_mHL.form = [] ++ .read 0x0000 0x00 :: [] ∧
        (failing.afterAccesses []).accessFails .read 0x0000 = true) ∧
      let s : State := { failing with sp := 0xD000 }
      s.accessesOf Instr.push_BC.form = [.write 0xCFFF 0x00] ++ .write 0xCFFE 0x00 :: [] ∧
        Served s [.write 0xCFFF 0x00] ∧ (s.afterAccesses [.write 0xCFFF 0x00]).accessFails .write 0xCFFE = true :=
  ⟨⟨⟨rfl, rfl⟩, ⟨rfl, rfl⟩, trivial⟩, ⟨⟨rfl, rfl⟩, ⟨rfl, rfl⟩, trivial⟩, ⟨rfl, rfl⟩,
    ⟨rfl, ⟨⟨rfl, rfl⟩, trivial⟩, rfl⟩, ⟨rfl, rfl⟩, rfl, ⟨rfl, trivial⟩, rfl⟩

theorem witness_EveryInstructionChargesItsCost : ∃ t, exec .pop_AF cpu = .next t := ⟨_, rfl⟩

/-- A step that sets `halted`, one that leaves it set, and one from outside that clears it. -/
theorem witness_HaltedIsSetByHaltAndClearedFromOutside :
    (∃ t, step { cpu with mem := [(0x0000, 0x76)] } = .next t ∧ t.halted = true) ∧
      (∃ t, step (withEvents { start := true }) = .next t ∧ t.halted = true) ∧
      ∃ t, step (withEvents { wake := true }) = .next t ∧ t.halted = false := ⟨⟨_, rfl, rfl⟩, ⟨_, rfl, rfl⟩, _, rfl, rfl⟩

/-- A step that sets `stopped`, one that leaves it set, and one that clears it; `Reset` wins over `Start`. -/
theorem witness_StoppedIsSetByResetAndClearedByStart :
    (∃ t, step (withEvents { reset := true, start := true }) = .next t ∧ t.stopped = true) ∧
      (∃ t, step State.reset = .next t ∧ t.stopped = true) ∧
      ∃ t, step { State.reset with schedule := [.owner { start := true }] } = .next t ∧ t.stopped = false :=
  ⟨⟨_, rfl, rfl⟩, ⟨_, rfl, rfl⟩, _, rfl, rfl⟩

/-- One instruction for each source, at the wrap of each sum. -/
theorem witness_StackPointerHasTheseSourcesOnly :
    (∃ t, exec .ld_SP_nn inTop = .next t) ∧ (∃ t, exec .ld_SP_HL cpu = .next t) ∧
      (∃ t, exec .inc_SP { cpu with sp := 0xFFFF } = .next t) ∧ (∃ t, exec .push_AF { cpu with sp := 0x0001 } = .next t) ∧
      (∃ t, exec .pop_AF { cpu with sp := 0xFFFE } = .next t) ∧ ∃ t, exec .nop cpu = .next t :=
  ⟨⟨_, rfl⟩, ⟨_, rfl⟩, ⟨_, rfl⟩, ⟨_, rfl⟩, ⟨_, rfl⟩, _, rfl⟩

theorem witness_NothingDependsOnTheCounters :
    SameButCounters atTop { atTop with m := 3, t := 20, clockM := 7, clockT := 28 } := rfl

/-- A state that is not the reset state, with listed memory and running counters, and a step from it. -/
theorem witness_StepKeepsTheInvariant :
    Inv { atTop with m := 3, t := 20, clockM := 3, clockT := 20 } ∧
      ∃ t, step { atTop with m := 3, t := 20, clockM := 3, clockT := 20 } = .next t :=
  ⟨⟨rfl, by decide, by decide, by decide, (by decide : 4 * 3 ≤ 20), by decide, by decide⟩, _, rfl⟩

/-- In RAM at 0xFFFF, and in an open range. -/
theorem witness_ByteWrittenIsTheByteRead :
    (cpu.canWrite 0xFFFF ∧ cpu.isOpen 0xFFFF = false ∧ cpu.canRead 0xFFFF ∧ cpu.serves (.read 0xFFFF 0x00)) ∧
      (device [.byte 7]).canWrite 0xFFFF ∧ (device [.byte 7]).isOpen 0xFFFF = true ∧
      (device [.byte 7]).serves (.read 0xFFFF 7) := ⟨⟨rfl, rfl, rfl, rfl, rfl⟩, rfl, rfl, rfl, rfl⟩

/-- At 0xFFFF, where the second address is 0x0000. -/
theorem witness_WordAccessIsLittleEndian :
    (Served cpu [.write 0xFFFF (loByte 0x1234), .write (0xFFFF + 1) (hiByte 0x1234)] ∧ cpu.isOpen 0xFFFF = false ∧
        cpu.isOpen (0xFFFF + 1) = false) ∧
      Served atTop [.read 0xFFFF 0x34, .read (0xFFFF + 1) 0x12] ∧
      Served (device [.byte 7, .byte 8]) [.read 0xFFFF 7, .read (0xFFFF + 1) 8] ∧ cpu.plainMemory = true :=
  ⟨⟨⟨rfl, rfl, trivial⟩, rfl, rfl⟩, ⟨⟨rfl, rfl⟩, ⟨rfl, rfl⟩, trivial⟩, ⟨⟨rfl, rfl⟩, ⟨rfl, rfl⟩, trivial⟩, rfl⟩

theorem witness_ImmediatesComeFromPcAndAdvanceIt :
    Served inTop [.read inTop.pc 0x34] ∧ Served inTop [.read inTop.pc 0x34, .read (inTop.pc + 1) 0x12] :=
  ⟨⟨⟨rfl, rfl⟩, trivial⟩, ⟨rfl, rfl⟩, ⟨rfl, rfl⟩, trivial⟩

theorem witness_FlagEncoderWritesOnlyNamedFlags :
    (∃ t, exec .inc_B (cpuWith 0 0xFF 0 0 0 0 0 0x50) = .next t) ∧ Flag.Cf ∉ formFlags Instr.inc_B.form :=
  ⟨⟨_, rfl⟩, by decide⟩

/-- Two states whose flags differ in all four, for an instruction that reads none, and in three for one that reads `Cf`. -/
theorem witness_FlagsAreReadByAdcSbcAndPushAfOnly :
    (SameButFlags cpu (cpuWith 0 0 0 0 0 0 0 0xF0) ∧ Instr.add_A_B.form ≠ .pushAF) ∧
      SameButFlags cpu (cpuWith 0 0 0 0 0 0 0 0xE0) ∧ Instr.adc_A_B.form = .alu .adc (.reg .B) ∧
      (cpuWith 0 0 0 0 0 0 0 0xE0).flag .Cf = cpu.flag .Cf ∧ (∃ t, exec .adc_A_B cpu = .next t) ∧
      (Instr.sbc_A_mHL.form = .alu .sbc .memHL ∧ ∃ t, exec .sbc_A_mHL cpu = .next t) ∧
      Instr.push_AF.form = .pushAF ∧ cpu.isOpen (cpu.sp - 2) = false ∧ ∃ t, exec .push_AF cpu = .next t :=
  ⟨⟨rfl, by decide⟩, rfl, rfl, rfl, ⟨_, rfl⟩, ⟨rfl, _, rfl⟩, rfl, rfl, _, rfl⟩

theorem witness_ClockRecordsAndAdds :
    cpu.params.clockBits = none ∧ ({ cpu with params := { clockBits := some 0 } } : State).params.clockBits = some 0 :=
  ⟨rfl, rfl⟩

theorem witness_ResetStateHoldsTheseValues :
    nextTurn (withEvents { reset := true }) = .owner { reset := true } := rfl

theorem witness_ResetEventGivesPowerOnValues :
    nextTurn (withEvents { reset := true, wake := true }) = .owner { reset := true, wake := true } := rfl

/-- A core reset; a memory reset of the default memory, and one of another memory, with an image. -/
theorem witness_CoreResetAndMemoryResetAreSeparate :
    ((∃ t, step (withEvents { reset := true }) = .next t) ∧
        nextTurn (withEvents { reset := true }) = .owner { reset := true }) ∧
      (nextTurn { cpu with schedule := [.memoryReset []] } = .memoryReset [] ∧
        ({ cpu with schedule := [.memoryReset []] } : State).plainMemory = true) ∧
      nextTurn { failing with schedule := [.memoryReset [(0xFFFF, 7)]] } = .memoryReset [(0xFFFF, 7)] ∧
      ({ failing with schedule := [.memoryReset [(0xFFFF, 7)]] } : State).plainMemory = false :=
  ⟨⟨⟨_, rfl⟩, rfl⟩, ⟨rfl, rfl⟩, rfl, rfl⟩

/-- One witness a clause; in the second both ways of waking without havoc; in the third the new `SP` at 0xFFFF. -/
theorem witness_StartAndWakeWriteTheirOwnBit :
    nextTurn (withEvents { start := true }) = .owner { start := true } ∧
      nextTurn (withEvents { wake := true }) = .owner { wake := true, havoc := none } ∧
      (nextTurn (withEvents { wake := true, havoc := some ⟨0, 0xFFFF, 1, 2⟩ }) =
          .owner { wake := true, havoc := some ⟨0, 0xFFFF, 1, 2⟩ } ∧ cpu.params.wakeHavoc = false) ∧
      ({ cpu with params := { wakeHavoc := true } } : State).params.wakeHavoc = true := ⟨rfl, rfl, ⟨rfl, rfl⟩, rfl⟩

theorem witness_EventsAtOneBoundary : ({ reset := true, start := true, wake := true } : Events).reset = true := rfl

theorem witness_LoadRegisterFromRegister :
    Instr.ld_B_C.form = .ldRegReg .B .C ∧ Instr.ld_A_A.form = .ldRegReg .A .A := ⟨rfl, rfl⟩

/-- From RAM, and from an open range. -/
theorem witness_LoadRegisterFromImmediate :
    Instr.ld_L_n.form = .ldRegImm .L ∧ Served inTop [.read inTop.pc 0x34] ∧
      Served (device [.byte 7]) [.read (device [.byte 7]).pc 7] :=
  ⟨rfl, ⟨⟨rfl, rfl⟩, trivial⟩, ⟨rfl, rfl⟩, trivial⟩

theorem witness_LoadPairFromImmediate :
    Instr.ld_HL_nn.form = .ldPairImm .HL ∧ Served inTop [.read inTop.pc 0x34, .read (inTop.pc + 1) 0x12] :=
  ⟨rfl, ⟨rfl, rfl⟩, ⟨rfl, rfl⟩, trivial⟩

theorem witness_LoadSpFromImmediate : Served inTop [.read inTop.pc 0x34, .read (inTop.pc + 1) 0x12] :=
  ⟨⟨rfl, rfl⟩, ⟨rfl, rfl⟩, trivial⟩

theorem witness_LoadAFromHL :
    let s : State := { cpuWith 0 0 0 0 0 0xFF 0xFF 0 with mem := [(0xFFFF, 0x99)] }
    Served s [.read (s.pair .HL) 0x99] := ⟨⟨rfl, rfl⟩, trivial⟩

/-- One instruction for each alternative, with the pair at 0xFFFF. -/
theorem witness_StoreRegisterAtPair :
    let s := cpuWith 0 0xFF 0xFF 0xFF 0xFF 0xFF 0xFF 0
    Instr.ld_mHL_L.form = .ldHLFromReg .L ∧ Instr.ld_mBC_A.form = .ldBCFromA ∧ Instr.ld_mDE_A.form = .ldDEFromA ∧
      s.canWrite (s.pair .BC) ∧ s.isOpen (s.pair .BC) = false ∧ s.canWrite (s.pair .HL) ∧
      s.isOpen (s.pair .HL) = false := ⟨rfl, rfl, rfl, rfl, rfl, rfl, rfl⟩

theorem witness_StoreImmediateAtHL :
    Served inTop [.read inTop.pc 0x34, .write (inTop.pair .HL) 0x34] ∧ inTop.isOpen (inTop.pair .HL) = false :=
  ⟨⟨⟨rfl, rfl⟩, rfl, trivial⟩, rfl⟩

/-- Between the opcode fetch and the immediates, with `nn` 0xFFFF, so that `nn + 1` wraps. -/
def absTop : State := { cpu with pc := 0xFFFF, sp := 0xABCD, mem := [(0x0000, 0xFF), (0xFFFF, 0xFF)] }

theorem witness_StoreAAtAbsolute :
    (0xFFFF : Word) = joinBytes 0xFF 0xFF ∧
      Served absTop [.read absTop.pc 0xFF, .read (absTop.pc + 1) 0xFF, .write 0xFFFF (absTop.reg .A)] ∧
      absTop.isOpen 0xFFFF = false := ⟨rfl, ⟨⟨rfl, rfl⟩, ⟨rfl, rfl⟩, rfl, trivial⟩, rfl⟩

theorem witness_StoreSpAtAbsolute :
    (0xFFFF : Word) = joinBytes 0xFF 0xFF ∧
      Served absTop [.read absTop.pc 0xFF, .read (absTop.pc + 1) 0xFF, .write 0xFFFF (loByte absTop.sp),
        .write (0xFFFF + 1) (hiByte absTop.sp)] ∧
      absTop.isOpen 0xFFFF = false ∧ absTop.isOpen (0xFFFF + 1) = false :=
  ⟨rfl, ⟨⟨rfl, rfl⟩, ⟨rfl, rfl⟩, rfl, rfl, trivial⟩, rfl, rfl⟩

theorem witness_LoadAFromAbsolute :
    (0xFFFF : Word) = joinBytes 0xFF 0xFF ∧
      Served absTop [.read absTop.pc 0xFF, .read (absTop.pc + 1) 0xFF, .read 0xFFFF 0xFF] :=
  ⟨rfl, ⟨rfl, rfl⟩, ⟨rfl, rfl⟩, ⟨rfl, rfl⟩, trivial⟩

/-- Both forms, at the offsets 0x00 and 0xFF. -/
theorem witness_StoreAInHighPage :
    let s := cpuWith 0 0 0xFF 0 0 0 0 0
    Served absTop [.read absTop.pc 0xFF, .write (highPage 0xFF) (absTop.reg .A)] ∧ absTop.isOpen (highPage 0xFF) = false ∧
      Served cpu [.read cpu.pc 0x00, .write (highPage 0x00) (cpu.reg .A)] ∧ cpu.isOpen (highPage 0x00) = false ∧
      Served s [.write (highPage (s.reg .C)) (s.reg .A)] ∧ s.isOpen (highPage (s.reg .C)) = false :=
  ⟨⟨⟨rfl, rfl⟩, rfl, trivial⟩, rfl, ⟨⟨rfl, rfl⟩, rfl, trivial⟩, rfl, ⟨rfl, trivial⟩, rfl⟩

theorem witness_LoadAFromHighPage :
    let s : State := { cpuWith 0 0 0xFF 0 0 0 0 0 with mem := [(0xFFFF, 0x1F)] }
    Served absTop [.read absTop.pc 0xFF, .read (highPage 0xFF) 0xFF] ∧
      Served cpu [.read cpu.pc 0x00, .read (highPage 0x00) 0x00] ∧ Served s [.read (highPage (s.reg .C)) 0x1F] :=
  ⟨⟨⟨rfl, rfl⟩, ⟨rfl, rfl⟩, trivial⟩, ⟨⟨rfl, rfl⟩, ⟨rfl, rfl⟩, trivial⟩, ⟨rfl, rfl⟩, trivial⟩

/-- Both operations, with a register and with `(HL)`, without and with carry in. -/
theorem witness_AddAndAdcResults :
    Instr.add_A_A.form = .alu .add (.reg .A) ∧ Instr.adc_A_mHL.form = .alu .adc .memHL ∧
      (cpuWith 0 0 0 0 0 0 0 0x10).flag .Cf = true ∧ (cpuWith 0 0 0 0 0 0 0 0x10).canReadOperand .memHL ∧
      cpu.canReadOperand (.reg .A) := ⟨rfl, rfl, rfl, rfl, trivial⟩

theorem witness_SubAndSbcResults :
    Instr.sub_mHL.form = .alu .sub .memHL ∧ Instr.sbc_A_A.form = .alu .sbc (.reg .A) ∧
      (cpuWith 0 0 0 0 0 0 0 0x10).flag .Cf = true ∧ cpu.canReadOperand .memHL ∧
      (cpuWith 0 0 0 0 0 0 0 0x10).canReadOperand (.reg .A) := ⟨rfl, rfl, rfl, rfl, trivial⟩

theorem witness_CompareResults :
    Instr.cp_mHL.form = .alu .cp .memHL ∧ Instr.cp_A.form = .alu .cp (.reg .A) ∧ cpu.canReadOperand .memHL ∧
      cpu.canReadOperand (.reg .A) := ⟨rfl, rfl, rfl, trivial⟩

theorem witness_LogicResults :
    Instr.and_mHL.form = .alu .and .memHL ∧ Instr.xor_A.form = .alu .xor (.reg .A) ∧ Instr.or_B.form = .alu .or (.reg .B) ∧
      cpu.canReadOperand .memHL ∧ cpu.canReadOperand (.reg .A) ∧ cpu.canReadOperand (.reg .B) :=
  ⟨rfl, rfl, rfl, rfl, trivial, trivial⟩

theorem witness_IncrementRegister : Instr.inc_A.form = .incReg .A := rfl

/-- At 0xFFFF, with the byte 0xFF there; and a device there that answers 0x0F and takes the write. -/
theorem witness_IncrementMemoryAtHL :
    let s : State := { cpuWith 0 0 0 0 0 0xFF 0xFF 0 with mem := [(0xFFFF, 0xFF)] }
    let u : State := { s with params := { openRanges := [⟨0xFFFF, 0xFFFF⟩] }, answers := [.byte 0x0F, .byte 0] }
    (Served s [.read (s.pair .HL) 0xFF, .write (s.pair .HL) 0x00] ∧ s.isOpen (s.pair .HL) = false) ∧
      Served u [.read (u.pair .HL) 0x0F, .write (u.pair .HL) 0x10] :=
  ⟨⟨⟨⟨rfl, rfl⟩, rfl, trivial⟩, rfl⟩, ⟨rfl, rfl⟩, rfl, trivial⟩

theorem witness_IncrementWords : Instr.inc_DE.form = .incPair .DE ∧ Instr.inc_HL.form = .incPair .HL := ⟨rfl, rfl⟩

theorem witness_AddPairToHL : Instr.add_HL_HL.form = .addHL .HL ∧ Instr.add_HL_BC.form = .addHL .BC := ⟨rfl, rfl⟩

/-- The byte 0xFF, the greatest offset read as a number and -1 read signed; and 0x7F and 0x80, where the sign turns. -/
theorem witness_LoadHLFromSpOffset :
    let s : State := { cpu with pc := 0xFFFF, mem := [(0x0000, 0x7F), (0x0001, 0x80), (0xFFFF, 0xFF)] }
    (255 = (0xFF : Byte).toNat ∧ Served s [.read s.pc 0xFF]) ∧
      Served { s with pc := 0 } [.read 0 0x7F] ∧ Served { s with pc := 1 } [.read 1 0x80] :=
  ⟨⟨rfl, ⟨rfl, rfl⟩, trivial⟩, ⟨⟨rfl, rfl⟩, trivial⟩, ⟨rfl, rfl⟩, trivial⟩

/-- Each alternative; `SP` 0x0001, so that the second address is 0xFFFF. -/
theorem witness_PushWritesHighThenLow :
    let s : State := { cpuWith 1 2 3 4 5 6 7 0xF0 with sp := 0x0001 }
    (Instr.push_BC.form = .push .BC ∧ Served s [.write (s.sp - 1) (s.reg .B), .write (s.sp - 2) (s.reg .C)]) ∧
      (Instr.push_AF.form = .pushAF ∧ Served s [.write (s.sp - 1) (s.reg .A), .write (s.sp - 2) s.readF]) ∧
      s.isOpen (s.sp - 1) = false ∧ s.isOpen (s.sp - 2) = false :=
  ⟨⟨rfl, rfl, rfl, trivial⟩, ⟨rfl, rfl, rfl, trivial⟩, rfl, rfl⟩

/-- `SP` 0xFFFF, so that the second address is 0x0000. -/
theorem witness_PopReadsLowThenHigh :
    let s : State := { cpu with sp := 0xFFFF, mem := [(0x0000, 0x22), (0xFFFF, 0x11)] }
    Instr.pop_HL.form = .pop .HL ∧ Served s [.read s.sp 0x11, .read (s.sp + 1) 0x22] :=
  ⟨rfl, ⟨rfl, rfl⟩, ⟨rfl, rfl⟩, trivial⟩

theorem witness_PushThenPopRestores :
    Instr.push_DE.form = .push .DE ∧ Instr.pop_DE.form = .pop .DE ∧ Instr.push_AF.form = .pushAF ∧
      Instr.pop_AF.form = .popAF ∧ cpu.plainMemory = true ∧ cpu.params.clockBits = none :=
  ⟨rfl, rfl, rfl, rfl, rfl, rfl⟩
end Sys2Proof.Tests
end

section
/-! Proofs of the statements of spec/10_state.md: what the state holds after a step, and what a step can observe. Each
statement about a step is taken from `step_cases` and `exec_next`, so that it is one fact about `formNext` (the state of
a form) and one about each kind of outside turn; the facts come first, the settled statements last. -/

namespace Sys2Proof.Machine

/-! ### The state an instruction starts from -/

@[simp] theorem fetched_pc (s : State) : s.fetched.pc = s.pc + 1 := rfl
@[simp] theorem fetched_clockM (s : State) : s.fetched.clockM = s.clockM := rfl
@[simp] theorem fetched_clockT (s : State) : s.fetched.clockT = s.clockT := rfl
@[simp] theorem fetched_halted (s : State) : s.fetched.halted = s.halted := rfl
@[simp] theorem fetched_stopped (s : State) : s.fetched.stopped = s.stopped := rfl
@[simp] theorem fetched_mem (s : State) : s.fetched.mem = s.mem := rfl
@[simp] theorem fetched_params (s : State) : s.fetched.params = s.params := rfl
@[simp] theorem fetched_bus (s : State) : s.fetched.bus = [.read s.pc (s.readValue s.pc)] := rfl

/-- A RUNNING core is neither STOPPED nor HALTED (R25). -/
theorem runState_eq_running {s : State} : s.runState = .running ↔ s.stopped = false ∧ s.halted = false := by
  cases hs : s.stopped <;> cases hh : s.halted <;> simp [State.runState, hs, hh]

/-- A running core's step that answers a next state has left the state of the form of the instruction at `PC`. -/
theorem step_next_of_aboutToStep {s t : State} {i : Instr} (ha : AboutToStep s) (hi : s.nextInstr = some i)
    (h : step s = .next t) : t = formNext i.form s.fetched := by
  cases hc : s.accessFails .read s.pc with
  | false =>
    have hd : dispatch (s.readValue s.pc) s.fetched = exec i s.fetched := by
      have he : s.fetched.decodeByte (s.readValue s.pc) = some i := hi
      simp [dispatch, he]
    exact exec_next (hd ▸ step_of_aboutToStep ha hc ▸ h)
  | true => simp [step_of_failed_fetch ha hc] at h

/-! ### What the state of a form holds: `PC`, the counters, `SP`, the flags, the bus -/

/-- `PC` passes the immediate bytes and nothing else (R15, R67). -/
theorem formNext_pc (f : Form) (s : State) : (formNext f s).pc = s.pc + BitVec.ofNat 16 (f.length - 1) := by
  cases f <;> simp [formNext, Form.length, BitVec.add_assoc]

/-- The opcode byte and the immediate bytes are the whole instruction (R61). -/
theorem one_add_immediates (f : Form) : 1 + BitVec.ofNat 16 (f.length - 1) = BitVec.ofNat 16 f.length := by
  cases f <;> rfl

/-- Only `HALT` has the form of `HALT`. -/
theorem form_eq_halt {i : Instr} : i.form = .halt ↔ i = .halt := by
  cases i <;> simp [Instr.form]

/-- Every form accounts the cost of the table of R199, once. -/
theorem formNext_charged (f : Form) (s : State) : Charged (formCost f).1 (formCost f).2 s (formNext f s) := by
  cases f with
  | alu o x => cases x <;> constructor <;> simp [formNext, formCost, operandCycles]
  | _ => constructor <;> simp [formNext, formCost]

/-- No cost exceeds 3 machine cycles or 20 cpu cycles, and none is below the default ratio (R199). -/
theorem formCost_bounds (f : Form) :
    (formCost f).1 ≤ 3 ∧ (formCost f).2 ≤ 20 ∧ 4 * (formCost f).1 ≤ (formCost f).2 := by
  cases f with
  | alu o x => cases x <;> simp [formCost]
  | _ => simp [formCost]

/-- The sources of a new `SP` (R16). -/
theorem formNext_sp (f : Form) (s : State) :
    (formNext f s).sp = match f with
      | .ldSpImm => s.immWord
      | .ldSpFromHL => s.pair .HL
      | .incSp => s.sp + 1
      | .push _ | .pushAF => s.sp - 2
      | .pop _ | .popAF => s.sp + 2
      | _ => s.sp := by
  cases f with
  | push p => exact sub_one_sub_one s.sp
  | pushAF => exact sub_one_sub_one s.sp
  | _ => simp [formNext]

/-- `INC` keeps `Cf` (R140). -/
theorem incCore_keeps {g : Flag} (v : Byte) (f : Flags) (h : g ∉ [Flag.Z, .N, .Hf]) :
    (incCore v f).2.get g = f.get g := by
  cases g <;> simp [incCore, Flags.get] at h ⊢

/-- `ADD HL,rr` keeps `Z` (R153; D11). -/
theorem addWordCore_keeps {g : Flag} (a x : Word) (f : Flags) (h : g ∉ [Flag.N, .Hf, .Cf]) :
    (addWordCore a x f).2.get g = f.get g := by
  cases g <;> simp [addWordCore, Flags.get] at h ⊢

/-- `LD HL,SP+e` keeps `Z` and `N` (R160; D10). -/
theorem spOffsetCore_keeps {g : Flag} (sp : Word) (e : Byte) (f : Flags) (h : g ∉ [Flag.Hf, .Cf]) :
    (spOffsetCore sp e f).2.get g = f.get g := by
  cases g <;> simp [spOffsetCore, Flags.get] at h ⊢

/-- A flag the table under R20 does not list for a form keeps its value. -/
theorem formNext_flag {f : Form} {g : Flag} (s : State) (h : g ∉ formFlags f) : (formNext f s).flag g = s.flag g := by
  cases f with
  | alu o x => cases g <;> simp [formFlags] at h
  | popAF => cases g <;> simp [formFlags] at h
  | incReg r => exact incCore_keeps _ _ h
  | incHLMem => exact incCore_keeps _ _ h
  | addHL p => exact addWordCore_keeps _ _ _ h
  | ldHLSpOffset => exact spOffsetCore_keeps _ _ _ h
  | _ => simp [formNext]

/-- At most four accesses follow the opcode fetch (R47). -/
theorem accessesOf_length_le (s : State) (f : Form) : (s.accessesOf f).length ≤ 4 := by
  cases f with
  | alu o x => cases x <;> simp [State.accessesOf, State.operandAccesses]
  | _ => simp [State.accessesOf, State.immRead, State.immReads, State.popReads]

/-! ### What the owner's turn does to the status bits -/

@[simp] theorem applyReset_halted (s : State) : (applyReset s).halted = false := rfl
@[simp] theorem applyReset_stopped (s : State) : (applyReset s).stopped = true := rfl
@[simp] theorem applyStart_halted (s : State) : (applyStart s).halted = s.halted := rfl
@[simp] theorem applyStart_stopped (s : State) : (applyStart s).stopped = false := rfl
@[simp] theorem applyWake_halted (w : Option Havoc) (s : State) : (applyWake w s).halted = false :=
  applyHavoc_halted w _
@[simp] theorem applyWake_stopped (w : Option Havoc) (s : State) : (applyWake w s).stopped = s.stopped :=
  applyHavoc_stopped w _

/-- `Reset` and `Wake` clear `halted`; no event sets it (R23, R178, R195). -/
theorem applyEvents_halted (ev : Events) (s : State) :
    (applyEvents ev s).halted = (s.halted && !ev.reset && !ev.wake) := by
  simp only [applyEvents]
  split_ifs <;> simp [*]

/-- `Reset` sets `stopped`; else `Start` clears it (R24, R179, R182). -/
theorem applyEvents_stopped (ev : Events) (s : State) :
    (applyEvents ev s).stopped = (ev.reset || (s.stopped && !ev.start)) := by
  simp only [applyEvents]
  split_ifs <;> simp [*]

@[simp] theorem applyMemoryReset_halted (image : List (Word × Byte)) (s : State) :
    (applyMemoryReset image s).halted = s.halted := rfl

@[simp] theorem applyMemoryReset_stopped (image : List (Word × Byte)) (s : State) :
    (applyMemoryReset image s).stopped = s.stopped := rfl

/-! ### The invariant -/

theorem inv_reset : Inv State.reset where
  mem := rfl
  m := Nat.zero_le _
  t := Nat.zero_le _
  ratio := Nat.zero_le _
  clocks := Nat.zero_le _
  status _ := rfl
  bus := Nat.zero_le _

/-- Counters that start in range are in range after one accounting of a cost of at least the default ratio (R83). -/
theorem clocksInv_of_charged {s t : State} {mc tc : Nat} (h : clocksInv s) (hp : t.params = s.params)
    (hc : Charged mc tc s t) (hr : 4 * mc ≤ tc) : clocksInv t := by
  obtain ⟨-, -, hM, hT⟩ := hc
  unfold clocksInv at *
  rw [hp, hM, hT]
  cases hb : s.params.clockBits with
  | none =>
    simp only [hb, wrapClock] at h ⊢
    omega
  | some k => exact ⟨Nat.mod_lt _ (Nat.two_pow_pos k), Nat.mod_lt _ (Nat.two_pow_pos k)⟩

theorem inv_popTurn {s : State} (h : Inv s) : Inv s.popTurn :=
  { h with }

/-- The instruction of a RUNNING core keeps the invariant: it starts with the fetch alone on the bus. -/
theorem inv_formNext_fetched {s : State} (h : Inv s) (hr : s.runState = .running) (f : Form) :
    Inv (formNext f s.fetched) := by
  obtain ⟨hm, ht, hmt⟩ := formCost_bounds f
  have hc := formNext_charged f s.fetched
  exact
    { mem := formNext_wf f h.mem
      m := hc.cyclesM ▸ hm
      t := hc.cyclesT ▸ ht
      ratio := hc.cyclesM ▸ hc.cyclesT ▸ hmt
      clocks := clocksInv_of_charged (s := s.fetched) h.clocks (formNext_params f _) hc hmt
      status := by simp [formNext_stopped, (runState_eq_running.mp hr).1]
      bus := by
        rw [(formNext_accessed f s.fetched).1, fetched_bus, List.length_append, List.length_singleton]
        have := accessesOf_length_le s.fetched f
        omega }

/-- `Reset` makes the invariant hold, if memory is in canonical form (R195). -/
theorem inv_applyReset {s : State} (h : Memory.wf s.mem = true) : Inv (applyReset s) where
  mem := h
  m := Nat.zero_le _
  t := Nat.zero_le _
  ratio := Nat.zero_le _
  clocks := by
    cases hb : s.params.clockBits <;> simp [clocksInv, applyReset, State.reset, hb]
  status _ := rfl
  bus := Nat.zero_le _

theorem inv_applyStart {s : State} (h : Inv s) : Inv (applyStart s) :=
  { h with status := fun hs => nomatch hs }

theorem inv_applyWake {s : State} (w : Option Havoc) (h : Inv s) : Inv (applyWake w s) where
  mem := wf_applyHavoc w h.mem
  m := by simpa [applyWake] using h.m
  t := by simpa [applyWake] using h.t
  ratio := by simpa [applyWake] using h.ratio
  clocks := by simpa [applyWake, clocksInv] using h.clocks
  status _ := applyWake_halted w s
  bus := by simpa [applyWake] using h.bus

theorem inv_applyEvents {s : State} (ev : Events) (h : Inv s) : Inv (applyEvents ev s) := by
  unfold applyEvents
  split
  · exact inv_applyReset h.mem
  · have h1 : Inv (if ev.start then applyStart s else s) := by
      split
      · exact inv_applyStart h
      · exact h
    simp only
    split
    · exact inv_applyWake ev.havoc h1
    · exact h1

theorem inv_applyMemoryReset {s : State} (image : List (Word × Byte)) (h : Inv s) : Inv (applyMemoryReset image s) :=
  { h with mem := wf_applyMemoryReset image s }

/-! ### States that differ in the counters alone -/

theorem SameButCounters.exists_eq {s u : State} (h : SameButCounters s u) :
    ∃ m t cM cT, u = { s with m := m, t := t, clockM := cM, clockT := cT } := ⟨_, _, _, _, h⟩

theorem SameButCounters.formNext {s u : State} (h : SameButCounters s u) (f : Form) :
    SameButCounters (formNext f s) (formNext f u) := by
  obtain ⟨m, t, cM, cT, rfl⟩ := h.exists_eq
  cases f with
  | alu o x => cases x <;> rfl
  | _ => rfl

theorem SameButCounters.accessesOf {s u : State} (h : SameButCounters s u) (f : Form) :
    u.accessesOf f = s.accessesOf f := by
  obtain ⟨m, t, cM, cT, rfl⟩ := h.exists_eq
  cases f with
  | alu o x => cases x <;> rfl
  | _ => rfl

/-- No instruction observes a counter. -/
theorem SameButCounters.exec {s u : State} (h : SameButCounters s u) (i : Instr) :
    EndAlike SameButCounters (exec i s) (exec i u) := by
  have hp : u.params = s.params := by rw [h]
  have ha : u.answers = s.answers := by rw [h]
  rw [exec_effect, exec_effect, h.accessesOf]
  exact settle_endAlike hp ha (h.formNext i.form)

theorem SameButCounters.dispatch {s u : State} (h : SameButCounters s u) (op : Byte) :
    EndAlike SameButCounters (dispatch op s) (dispatch op u) := by
  have hd : u.decodeByte op = s.decodeByte op := by rw [h]; rfl
  unfold Machine.dispatch
  rw [hd]
  cases s.decodeByte op with
  | some i => exact h.exec i
  | none => rfl

theorem SameButCounters.applyReset {s u : State} (h : SameButCounters s u) :
    SameButCounters (applyReset s) (applyReset u) := by
  obtain ⟨m, t, cM, cT, rfl⟩ := h.exists_eq
  rfl

theorem SameButCounters.applyStart {s u : State} (h : SameButCounters s u) :
    SameButCounters (applyStart s) (applyStart u) := by
  obtain ⟨m, t, cM, cT, rfl⟩ := h.exists_eq
  rfl

theorem SameButCounters.applyWake {s u : State} (h : SameButCounters s u) (w : Option Havoc) :
    SameButCounters (applyWake w s) (applyWake w u) := by
  obtain ⟨m, t, cM, cT, rfl⟩ := h.exists_eq
  cases w with
  | none => rfl
  | some w =>
    cases hw : s.params.wakeHavoc <;> simp only [Machine.applyWake, applyHavoc, State.setHalted, hw] <;> rfl

theorem SameButCounters.applyEvents {s u : State} (h : SameButCounters s u) (ev : Events) :
    SameButCounters (applyEvents ev s) (applyEvents ev u) := by
  unfold Machine.applyEvents
  split
  · exact h.applyReset
  · have h1 : SameButCounters (if ev.start then Machine.applyStart s else s)
        (if ev.start then Machine.applyStart u else u) := by
      split
      · exact h.applyStart
      · exact h
    simp only
    split
    · exact h1.applyWake ev.havoc
    · exact h1

theorem SameButCounters.popTurn {s u : State} (h : SameButCounters s u) : SameButCounters s.popTurn u.popTurn := by
  obtain ⟨m, t, cM, cT, rfl⟩ := h.exists_eq
  rfl

theorem SameButCounters.fetched {s u : State} (h : SameButCounters s u) : SameButCounters s.fetched u.fetched := by
  obtain ⟨m, t, cM, cT, rfl⟩ := h.exists_eq
  rfl

theorem SameButCounters.applyMemoryReset {s u : State} (h : SameButCounters s u) (image : List (Word × Byte)) :
    SameButCounters (applyMemoryReset image s) (applyMemoryReset image u) := by
  obtain ⟨m, t, cM, cT, rfl⟩ := h.exists_eq
  rfl

/-- The step of a RUNNING core observes no counter: the fetch ends alike, and so does the instruction. -/
theorem SameButCounters.step_running {s u : State} (h : SameButCounters s u) (ha : AboutToStep s) :
    EndAlike SameButCounters (step s) (step u) := by
  have ha' : AboutToStep u := by rw [h]; exact ⟨ha.turn, ha.running⟩
  have hpc : u.pc = s.pc := by rw [h]
  have hf : u.accessFails .read u.pc = s.accessFails .read s.pc := by rw [h]; rfl
  have hv : u.readValue u.pc = s.readValue s.pc := by rw [h]; rfl
  cases hc : s.accessFails .read s.pc with
  | false =>
    rw [step_of_aboutToStep ha hc, step_of_aboutToStep ha' (hf.trans hc), hv]
    exact h.fetched.dispatch _
  | true =>
    rw [step_of_failed_fetch ha hc, step_of_failed_fetch ha' (hf.trans hc), hpc]
    rfl

/-- No turn observes a counter. -/
theorem SameButCounters.step {s u : State} (h : SameButCounters s u) : EndAlike SameButCounters (step s) (step u) := by
  have hn : nextTurn u = nextTurn s := by rw [h]; rfl
  have hr : u.runState = s.runState := by rw [h]; rfl
  cases ht : nextTurn s with
  | core =>
    by_cases hs : s.runState = .running
    · exact h.step_running ⟨ht, hs⟩
    · rw [step_of_idle ht hs, step_of_idle (hn.trans ht) (hr ▸ hs)]
      exact h.popTurn
  | owner ev =>
    rw [step_of_owner ht, step_of_owner (hn.trans ht)]
    exact h.popTurn.applyEvents ev
  | memoryReset image =>
    rw [step_of_memoryReset ht, step_of_memoryReset (hn.trans ht)]
    exact h.popTurn.applyMemoryReset image

/-! ### States that differ in the flags alone -/

theorem SameButFlags.exists_eq {s u : State} (h : SameButFlags s u) : ∃ g, u = s.setFlags g := ⟨_, h⟩

/-- `PUSH AF` alone puts the flags on the bus. -/
theorem SameButFlags.accessesOf {s u : State} (h : SameButFlags s u) {f : Form} (hf : f ≠ .pushAF) :
    u.accessesOf f = s.accessesOf f := by
  obtain ⟨g, rfl⟩ := h.exists_eq
  cases f with
  | alu o x => cases x <;> rfl
  | pushAF => exact absurd rfl hf
  | _ => rfl

/-- The result of an ALU operation other than `ADC` and `SBC` does not depend on the carry in. -/
theorem aluResult_carry {o : AluOp} (a x : Byte) (c d : Bool) (h : o = .adc ∨ o = .sbc → d = c) :
    aluResult o a x d = aluResult o a x c := by
  cases o with
  | adc => rw [h (.inl rfl)]
  | sbc => rw [h (.inr rfl)]
  | _ => rfl

/-- The state of a form but `PUSH AF` depends on the flags in the flags alone, given the carry in of `ADC` and `SBC`. -/
theorem SameButFlags.formNext {s u : State} (h : SameButFlags s u) {f : Form} (hf : f ≠ .pushAF)
    (hc : (∃ x, f = .alu .adc x ∨ f = .alu .sbc x) → u.flag .Cf = s.flag .Cf) :
    SameButFlags (formNext f s) (formNext f u) := by
  obtain ⟨g, rfl⟩ := h.exists_eq
  cases f with
  | alu o x =>
    have hr : ∀ a v, aluResult o a v g.c = aluResult o a v s.flags.c := fun a v =>
      aluResult_carry a v _ _ fun ho => hc ⟨x, ho.imp (congrArg (Form.alu · x)) (congrArg (Form.alu · x))⟩
    cases x <;> simp only [Machine.formNext, State.setFlags_flags, hr] <;> rfl
  | pushAF => exact absurd rfl hf
  | _ => rfl

/-- No instruction but `PUSH AF` observes a flag, but for the carry in of `ADC` and `SBC`. -/
theorem SameButFlags.exec {s u : State} (h : SameButFlags s u) {i : Instr} (hi : i.form ≠ .pushAF)
    (hc : (∃ x, i.form = .alu .adc x ∨ i.form = .alu .sbc x) → u.flag .Cf = s.flag .Cf) :
    EndAlike SameButFlags (exec i s) (exec i u) := by
  have hp : u.params = s.params := by rw [h]
  have ha : u.answers = s.answers := by rw [h]
  rw [exec_effect, exec_effect, h.accessesOf hi]
  exact settle_endAlike hp ha (h.formNext hi hc)

theorem addCore_result (a x : Byte) (c : Bool) : (addCore a x c).1 = a + x + (if c then 1 else 0) := by
  apply BitVec.eq_of_toNat_eq
  cases c <;> simp [addCore]

theorem subCore_result (a x : Byte) (c : Bool) : (subCore a x c).1 = a - x - (if c then 1 else 0) := by
  have ha := a.isLt
  have hx := x.isLt
  apply BitVec.eq_of_toNat_eq
  cases c <;> simp [subCore, BitVec.toNat_sub] <;> omega

/-! ### The flag byte -/

theorem Flags.get_eq_decide (g : Flags) (f : Flag) : g.get f = decide (g.toByte &&& f.mask ≠ 0) := by
  obtain ⟨z, n, h, c⟩ := g
  cases f <;> revert z n h c <;> decide

theorem Flags.toByte_set (g : Flags) (f : Flag) (b : Bool) :
    (g.set f b).toByte = (g.toByte &&& ~~~f.mask) ||| (if b then f.mask else 0) := by
  obtain ⟨z, n, h, c⟩ := g
  cases f <;> revert z n h c b <;> decide

/-- The low nibble of a word is that of its low half. -/
theorem joinBytes_and_F0 (v : Word) : joinBytes (hiByte v) (loByte v &&& 0xF0) = v &&& 0xFFF0 :=
  calc joinBytes (hiByte v) (loByte v &&& 0xF0)
    _ = joinBytes (hiByte v &&& BitVec.allOnes 8) (loByte v &&& 0xF0) := by rw [BitVec.and_allOnes]
    _ = joinBytes (hiByte v) (loByte v) &&& joinBytes (BitVec.allOnes 8) 0xF0 := BitVec.and_append.symm
    _ = v &&& 0xFFF0 := by rw [joinBytes_hiByte_loByte]; rfl

theorem Flags.toByte_lowNibble (g : Flags) : g.toByte &&& 0x0F = 0 := by
  obtain ⟨z, n, h, c⟩ := g
  revert z n h c
  decide

/-! ### What an instruction does with the flags it reads -/

/-- `ADC` and `SBC` take `Cf` into the result (R126, R130). -/
theorem formNext_adc_reg_A (x : Operand8) (s : State) :
    (formNext (.alu .adc x) s).reg .A = s.reg .A + s.operandValue x + (if s.flag .Cf then 1 else 0) := by
  simp only [formNext, State.clock_reg, State.setFlags_reg, State.reg_setReg, if_true]
  exact addCore_result _ _ _

theorem formNext_sbc_reg_A (x : Operand8) (s : State) :
    (formNext (.alu .sbc x) s).reg .A = s.reg .A - s.operandValue x - (if s.flag .Cf then 1 else 0) := by
  simp only [formNext, State.clock_reg, State.setFlags_reg, State.reg_setReg, if_true]
  exact subCore_result _ _ _

/-- `PUSH AF` leaves the byte `F` at `SP - 2`, if that is RAM (R167; D15). -/
theorem formNext_pushAF_byteAt {s : State} (h : s.isOpen (s.sp - 2) = false) :
    (formNext .pushAF s).byteAt (s.sp - 2) = s.readF := by
  rw [← sub_one_sub_one] at h ⊢
  have hn : (s.afterPush (s.reg .A)).answer (s.sp - 1 - 1) = none := State.answer_of_ram h
  exact (State.afterPush_byteAt (s.afterPush (s.reg .A)) s.readF (s.sp - 1 - 1)).trans (if_pos ⟨rfl, hn⟩)

/-! ### The settled statements -/

/-- Settles O17: each clause on the values of R26. -/
theorem resetMeetsTheInvariant : Obligations.ResetMeetsTheInvariant := inv_reset

/-- Settles O21, by the round trip of the two halves of a word and of the flag byte. -/
theorem pairViewsRoundTrip : Obligations.PairViewsRoundTrip := by
  refine ⟨fun s p v => ⟨?_, ?_, ?_⟩, fun s p x y => ?_, fun s v => ?_⟩
  · simp [State.pair, State.setPair]
  · simp [State.setPair, hiByte]
  · simp [State.setPair, loByte]
  · simp [State.pair, joinBytes_toNat, Nat.mul_comm]
  · rw [← joinBytes_and_F0]
    simp [State.pairAF, State.setPairAF, State.writeF, Flags.toByte_ofByte]

/-- Settles O24, by the byte of the four stored flags. -/
theorem flagByteLowNibbleReadsZero : Obligations.FlagByteLowNibbleReadsZero :=
  fun s v => ⟨Flags.toByte_lowNibble s.flags, Flags.toByte_ofByte v⟩

/-- Settles O26: the values by computation, the `Reset` event by what the owner's turn does. -/
theorem resetStateHoldsTheseValues : Obligations.ResetStateHoldsTheseValues := by
  refine ⟨fun r => by cases r <;> rfl, rfl, fun f => by cases f <;> rfl, rfl, rfl, rfl, rfl, rfl, rfl, rfl, rfl, ?_⟩
  intro s ev ht hr
  rw [step_of_owner ht, applyEvents, if_pos hr]
  rfl

/-- Settles O8: `PC` is past the opcode byte when the instruction starts, and the fetch accounts nothing. -/
theorem stepAdvancesPcByTheLength : Obligations.StepAdvancesPcByTheLength := by
  intro s t i ha hi h
  rw [step_next_of_aboutToStep ha hi h]
  refine ⟨?_, ?_⟩
  · rw [formNext_pc, fetched_pc, BitVec.add_assoc, one_add_immediates]
    rfl
  · obtain ⟨hm, ht, hM, hT⟩ := formNext_charged i.form s.fetched
    exact ⟨hm, ht, hM, hT⟩

/-- Settles O12, by the kind of turn the step was. -/
theorem haltedIsSetByHaltAndClearedFromOutside : Obligations.HaltedIsSetByHaltAndClearedFromOutside := by
  intro s t h
  rcases step_cases h with ⟨i, ha, -, hi, he⟩ | ⟨ht, hr, rfl⟩ | ⟨ev, ht, rfl⟩ | ⟨image, ht, rfl⟩
  · have hs : s.halted = false := (runState_eq_running.mp ha.running).2
    simp [exec_next he, formNext_halted, hs, ha, hi, form_eq_halt]
  · have hn : ¬ AboutToStep s := fun ha => hr ha.running
    simp [ht, hn]
  · have hn : ¬ AboutToStep s := fun ha => nomatch ht ▸ ha.turn
    simp [ht, hn, applyEvents_halted, and_assoc]
  · have hn : ¬ AboutToStep s := fun ha => nomatch ht ▸ ha.turn
    simp [ht, hn]

/-- Settles O13, by the kind of turn the step was. -/
theorem stoppedIsSetByResetAndClearedByStart : Obligations.StoppedIsSetByResetAndClearedByStart := by
  intro s t h
  rcases step_cases h with ⟨i, ha, -, -, he⟩ | ⟨ht, -, rfl⟩ | ⟨ev, ht, rfl⟩ | ⟨image, ht, rfl⟩
  · simp [exec_next he, formNext_stopped, ha.turn]
  · simp [ht]
  · simp [ht, applyEvents_stopped]
  · simp [ht]

/-- Settles O14, by the `SP` of each form's state. -/
theorem stackPointerHasTheseSourcesOnly : Obligations.StackPointerHasTheseSourcesOnly := by
  intro i s t h
  rw [exec_next h]
  exact formNext_sp i.form s

/-- Settles O22, by the byte of each flag set and the flags each form's state keeps. -/
theorem flagEncoderWritesOnlyNamedFlags : Obligations.FlagEncoderWritesOnlyNamedFlags := by
  refine ⟨fun s f b => Flags.toByte_set s.flags f b, fun i s t h f hf => ?_⟩
  rw [exec_next h]
  exact formNext_flag s hf

/-- Settles O23: the flags before an instruction reach the carry in and the byte of `PUSH AF`, and else flags alone. -/
theorem flagsAreReadByAdcSbcAndPushAfOnly : Obligations.FlagsAreReadByAdcSbcAndPushAfOnly := by
  refine ⟨fun s f => Flags.get_eq_decide s.flags f, fun i x s t h => ?_, fun i s u h hi hc => ?_⟩
  · rw [exec_next h]
    refine ⟨fun e => ?_, fun e => ?_, fun e => ?_⟩ <;> rw [e]
    · exact formNext_adc_reg_A x s
    · exact formNext_sbc_reg_A x s
    · exact ⟨(formNext_accessed .pushAF s).1, formNext_pushAF_byteAt⟩
  · exact h.exec hi hc

/-- Settles O15: a step depends on the turn, the fetch and the instruction, and none of them on a counter. -/
theorem nothingDependsOnTheCounters : Obligations.NothingDependsOnTheCounters :=
  fun _ _ h => h.step

/-- Settles O16, by the kind of turn the step was. -/
theorem stepKeepsTheInvariant : Obligations.StepKeepsTheInvariant := by
  intro s t hs h
  rcases step_cases h with ⟨i, ha, -, -, he⟩ | ⟨-, -, rfl⟩ | ⟨ev, -, rfl⟩ | ⟨image, -, rfl⟩
  · rw [exec_next he]
    exact inv_formNext_fetched hs ha.running i.form
  · exact inv_popTurn hs
  · exact inv_applyEvents ev (inv_popTurn hs)
  · exact inv_applyMemoryReset image (inv_popTurn hs)

end Sys2Proof.Machine
end

section
/-! Proofs of the statements of spec/20_memory.md: how an instruction ends, given what the memory collaborator answers, and
what one byte or one word access leaves. An instruction's end is that of its row of accesses (`exec_effect`); a row whose
reads carry the bytes the collaborator has for them is served, or splits at the first access that fails. -/

namespace Sys2Proof.Machine

/-! ### Rows of accesses: served, or failing at one of them -/

/-- The byte an access shows is the one the collaborator has for it, should it answer: nothing to ask of a write. -/
def State.shows (s : State) : Access → Prop
  | .read a v => s.readValue a = v
  | .write _ _ => True

/-- Each access of a row shows the right byte, those before it having been made. -/
def ShowsRow (s : State) : List Access → Prop
  | [] => True
  | x :: rest => s.shows x ∧ ShowsRow (s.afterAccess x) rest

/-- An access is served if it shows the right byte and does not fail. -/
theorem State.serves_iff (s : State) (x : Access) :
    s.serves x ↔ s.accessFails x.kind x.addr = false ∧ s.shows x := by
  cases x with
  | read a v => exact Iff.rfl
  | write a v => exact (and_iff_left trivial).symm

/-- Every access R47 lists for a form shows the byte the collaborator has for it. -/
theorem showsRow_accessesOf (f : Form) (s : State) : ShowsRow s (s.accessesOf f) := by
  cases f with
  | alu o x =>
    cases x with
    | reg r => trivial
    | memHL => exact ⟨rfl, trivial⟩
  | nop | halt | ldRegReg | ldSpFromHL | incReg | incPair | incSp | addHL => trivial
  | ldRegImm | ldHLSpOffset => exact ⟨rfl, trivial⟩
  | ldAFromHL | ldhAFromC => exact ⟨rfl, trivial⟩
  | ldHLFromReg | ldBCFromA | ldDEFromA | ldhCFromA => exact ⟨trivial, trivial⟩
  | ldPairImm | ldSpImm => exact ⟨rfl, rfl, trivial⟩
  | pop | popAF => exact ⟨rfl, rfl, trivial⟩
  | push | pushAF => exact ⟨trivial, trivial, trivial⟩
  | ldHLFromImm | ldhImmFromA | incHLMem => exact ⟨rfl, trivial, trivial⟩
  | ldhAFromImm => exact ⟨rfl, rfl, trivial⟩
  | ldAbsFromA => exact ⟨rfl, rfl, trivial, trivial⟩
  | ldAbsFromSp => exact ⟨rfl, rfl, trivial, trivial, trivial⟩
  | ldAFromAbs => exact ⟨rfl, rfl, rfl, trivial⟩

/-- A row that shows the right bytes is served as a whole, or up to the first access that fails. -/
theorem served_or_splits {s : State} {row : List Access} (h : ShowsRow s row) :
    Served s row ∨ ∃ xs x ys, row = xs ++ x :: ys ∧ Served s xs ∧
      (s.afterAccesses xs).accessFails x.kind x.addr = true := by
  induction row generalizing s with
  | nil => exact .inl trivial
  | cons x rest ih =>
    obtain ⟨hx, hrest⟩ := h
    cases hf : s.accessFails x.kind x.addr with
    | true => exact .inr ⟨[], x, rest, rfl, trivial, hf⟩
    | false =>
      have hs : s.serves x := (s.serves_iff x).mpr ⟨hf, hx⟩
      rcases ih hrest with hr | ⟨xs, y, ys, rfl, hxs, hy⟩
      · exact .inl ⟨hs, hr⟩
      · exact .inr ⟨x :: xs, y, ys, rfl, ⟨hs, hxs⟩, hy⟩

/-- An access that fails after those before it were served is the fault of the instruction. -/
theorem exec_failing {i : Instr} {s : State} {xs ys : List Access} {x : Access}
    (e : s.accessesOf i.form = xs ++ x :: ys) (h : Served s xs)
    (hf : (s.afterAccesses xs).accessFails x.kind x.addr = true) :
    exec i s = .fault (.memoryAccess x.kind x.addr) := by
  rw [exec_effect, e, settle_failing _ h hf]

/-- With the default memory every instruction completes. -/
theorem exec_plain {i : Instr} {s : State} (h : s.plainMemory = true) : exec i s = .next (formNext i.form s) := by
  rw [exec_effect, settle_plain _ h]

/-! ### What one byte access leaves -/

theorem OnlyWrites.trans {w : Writes} {s t u : State} (h : OnlyWrites w s t) (h' : OnlyWrites w t u) :
    OnlyWrites w s u where
  regs r hr := (h'.regs r hr).trans (h.regs r hr)
  flags f hf := (h'.flags f hf).trans (h.flags f hf)
  sp hw := (h'.sp hw).trans (h.sp hw)
  halted hw := (h'.halted hw).trans (h.halted hw)
  stopped := h'.stopped.trans h.stopped
  mem a ha := (h'.mem a ha).trans (h.mem a ha)
  schedule := h'.schedule.trans h.schedule
  params := h'.params.trans h.params

theorem CountersKept.trans {s t u : State} (h : CountersKept s t) (h' : CountersKept t u) : CountersKept s u where
  cyclesM := h'.cyclesM.trans h.cyclesM
  cyclesT := h'.cyclesT.trans h.cyclesT
  totalM := h'.totalM.trans h.totalM
  totalT := h'.totalT.trans h.totalT

/-- A load writes nothing. -/
theorem afterLoad_onlyWrites (w : Writes) (s : State) (a : Word) : OnlyWrites w s (s.afterLoad a) := by
  constructor <;> intros <;> rfl

/-- A store writes its address alone. -/
theorem afterStore_onlyWrites {w : Writes} (s : State) {a : Word} (v : Byte) (h : a ∈ w.mem) :
    OnlyWrites w s (s.afterStore a v) where
  regs _ _ := rfl
  flags _ _ := rfl
  sp _ := rfl
  halted _ := rfl
  stopped := rfl
  mem b hb := by
    have hne : b ≠ a := fun e => hb (e ▸ h)
    simp [hne]
  schedule := rfl
  params := rfl

theorem afterLoad_countersKept (s : State) (a : Word) : CountersKept s (s.afterLoad a) := ⟨rfl, rfl, rfl, rfl⟩

theorem afterStore_countersKept (s : State) (a : Word) (v : Byte) : CountersKept s (s.afterStore a v) :=
  ⟨rfl, rfl, rfl, rfl⟩

theorem afterLoad_accessed (s : State) (a : Word) : Accessed [.read a (s.readValue a)] s (s.afterLoad a) := ⟨rfl, rfl⟩

theorem afterStore_accessed (s : State) (a : Word) (v : Byte) : Accessed [.write a v] s (s.afterStore a v) := ⟨rfl, rfl⟩

/-- In RAM a store leaves the byte at its address. -/
theorem afterStore_byteAt_same {s : State} {a : Word} (v : Byte) (h : s.isOpen a = false) :
    (s.afterStore a v).byteAt a = v := by
  simp [State.answer_of_ram h]

/-- In RAM a read after a store answers the byte stored. -/
theorem readValue_afterStore {s : State} {a : Word} (v : Byte) (h : s.isOpen a = false) :
    (s.afterStore a v).readValue a = v :=
  (State.readValue_of_ram (s := s.afterStore a v) h).trans (afterStore_byteAt_same v h)

/-- A store in RAM takes no answer, so what fails after it failed before it. -/
theorem accessFails_afterStore {s : State} {a : Word} (v : Byte) (h : s.isOpen a = false) (k : AccessKind) (b : Word) :
    (s.afterStore a v).accessFails k b = s.accessFails k b := by
  have ha : (s.afterStore a v).answers = s.answers := by simp [h]
  exact accessFails_congr (s := s) (u := s.afterStore a v) rfl ha k b

/-! ### What a word access leaves -/

/-- The state after a word is loaded: low byte, then high byte (R43). -/
def State.afterLoadWord (s : State) (a : Word) : State := (s.afterLoad a).afterLoad (a + 1)

/-- The state after a word is stored: low byte, then high byte (R44). -/
def State.afterStoreWord (s : State) (a v : Word) : State :=
  (s.afterStore a (loByte v)).afterStore (a + 1) (hiByte v)

@[simp] theorem State.afterLoadWord_pc (s : State) (a : Word) : (s.afterLoadWord a).pc = s.pc := by
  simp [State.afterLoadWord]

@[simp] theorem State.afterStoreWord_pc (s : State) (a v : Word) : (s.afterStoreWord a v).pc = s.pc := by
  simp [State.afterStoreWord]

@[simp] theorem State.afterStoreWord_params (s : State) (a v : Word) : (s.afterStoreWord a v).params = s.params := by
  simp [State.afterStoreWord]

theorem readWord_served {s : State} {a : Word} {lo hi : Byte} (h : Served s [.read a lo, .read (a + 1) hi]) :
    readWord a s = .next (joinBytes hi lo, s.afterLoadWord a) := by
  obtain ⟨⟨hlo, rfl⟩, ⟨hhi, rfl⟩, -⟩ := h
  exact readWord_answers hlo hhi

theorem writeWord_served {s : State} {a v : Word} (h : Served s [.write a (loByte v), .write (a + 1) (hiByte v)]) :
    writeWord a v s = .next (s.afterStoreWord a v) :=
  writeWord_answers v h.1 h.2.1

theorem ne_add_one (a : Word) : a ≠ a + 1 := by bv_omega

theorem afterLoadWord_onlyWrites (w : Writes) (s : State) (a : Word) : OnlyWrites w s (s.afterLoadWord a) :=
  (afterLoad_onlyWrites w s a).trans (afterLoad_onlyWrites w _ (a + 1))

theorem afterStoreWord_onlyWrites (s : State) (a v : Word) :
    OnlyWrites { mem := [a, a + 1] } s (s.afterStoreWord a v) :=
  (afterStore_onlyWrites s _ (by simp)).trans (afterStore_onlyWrites _ _ (by simp))

theorem afterStoreWord_byteAt_lo {s : State} {a : Word} (v : Word) (h : s.isOpen a = false) :
    (s.afterStoreWord a v).byteAt a = loByte v := by
  rw [State.afterStoreWord, State.afterStore_byteAt, if_neg fun e => ne_add_one a e.1, afterStore_byteAt_same _ h]

theorem afterStoreWord_byteAt_hi {s : State} {a : Word} (v : Word) (h : s.isOpen (a + 1) = false) :
    (s.afterStoreWord a v).byteAt (a + 1) = hiByte v :=
  afterStore_byteAt_same (s := s.afterStore a (loByte v)) (hiByte v) h

theorem afterStoreWord_accessed (s : State) (a v : Word) :
    Accessed [.write a (loByte v), .write (a + 1) (hiByte v)] s (s.afterStoreWord a v) :=
  ⟨by simp [State.afterStoreWord], rfl⟩

theorem afterLoadWord_accessed {s : State} {a : Word} {lo hi : Byte} (h : Served s [.read a lo, .read (a + 1) hi]) :
    Accessed [.read a lo, .read (a + 1) hi] s (s.afterLoadWord a) := by
  obtain ⟨⟨-, rfl⟩, ⟨-, rfl⟩, -⟩ := h
  exact ⟨by simp [State.afterLoadWord, State.afterAccess], rfl⟩

theorem afterLoadWord_countersKept (s : State) (a : Word) : CountersKept s (s.afterLoadWord a) :=
  (afterLoad_countersKept s a).trans (afterLoad_countersKept _ (a + 1))

theorem afterStoreWord_countersKept (s : State) (a v : Word) : CountersKept s (s.afterStoreWord a v) :=
  (afterStore_countersKept s a _).trans (afterStore_countersKept _ (a + 1) _)

/-- With the default memory a word read answers the two bytes of RAM. -/
theorem readWord_plain {s : State} (a : Word) (h : s.plainMemory = true) :
    readWord a s = .next (joinBytes (s.byteAt (a + 1)) (s.byteAt a), s.afterLoadWord a) := by
  have ha := isOpen_of_plain h a
  have hr := readWord_answers (accessFails_of_plain h .read a)
    (accessFails_of_plain (s := s.takeAnswer a) h .read (a + 1))
  rwa [State.takeAnswer_of_ram ha, State.readValue_of_ram ha, State.readValue_of_ram (isOpen_of_plain h (a + 1))] at hr

/-- With the default memory a word write completes. -/
theorem writeWord_plain {s : State} (a v : Word) (h : s.plainMemory = true) :
    writeWord a v s = .next (s.afterStoreWord a v) :=
  writeWord_answers v (accessFails_of_plain h .write a)
    (accessFails_of_plain (s := s.storeByte a (loByte v)) h .write (a + 1))

/-! ### The settled statements -/

/-- Settles O9: the row of accesses of the instruction is served, or splits at the first that fails. -/
theorem everyInstructionCompletesUnlessMemoryFails : Obligations.EveryInstructionCompletesUnlessMemoryFails := by
  refine ⟨fun i s => ?_, fun i s h => ⟨_, exec_plain h⟩⟩
  rcases served_or_splits (showsRow_accessesOf i.form s) with h | ⟨xs, x, ys, e, h, hf⟩
  · exact .inl ⟨_, (exec_served h rfl).1⟩
  · exact .inr ⟨xs, x, ys, e, h, hf, exec_failing e h hf⟩

/-- Settles O10, by the end of an instruction whose accesses are served and of one that has a failing access. -/
theorem failingAccessFaultsTheInstruction : Obligations.FailingAccessFaultsTheInstruction :=
  ⟨fun _ _ h => ⟨_, exec_served h rfl⟩, fun _ _ _ _ _ e h hf => exec_failing e h hf⟩

/-- Settles O7, by what a step answers when its fetch fails. -/
theorem failedFetchFaultsBeforeDecode : Obligations.FailedFetchFaultsBeforeDecode :=
  fun _ ha hf => step_of_failed_fetch ha hf

/-- Settles O18, by the states after a store and after a load. -/
theorem byteWrittenIsTheByteRead : Obligations.ByteWrittenIsTheByteRead := by
  refine ⟨fun s a v hw => ?_, fun s a v hr => ?_⟩
  · refine ⟨_, writeByte_answers v hw, afterStore_byteAt_same v, afterStore_onlyWrites s v (List.mem_singleton_self a),
      rfl, afterStore_countersKept s a v, afterStore_accessed s a v, fun ho hc => ?_⟩
    have hv := readValue_afterStore v ho
    have hl := readByte_answers ((accessFails_afterStore v ho .read a).trans hc)
    have hb := afterLoad_accessed (s.afterStore a v) a
    rw [hv] at hl hb
    exact ⟨_, hl, afterLoad_onlyWrites {} _ a, rfl, afterLoad_countersKept _ a, hb⟩
  · obtain ⟨hc, rfl⟩ := hr
    exact ⟨_, readByte_answers hc, State.readValue_of_ram, afterLoad_onlyWrites {} s a, rfl, afterLoad_countersKept s a,
      afterLoad_accessed s a⟩

/-- Settles O19, by the states after a word is stored and after one is loaded. -/
theorem wordAccessIsLittleEndian : Obligations.WordAccessIsLittleEndian := by
  refine ⟨fun s a v hw => ?_, fun s a lo hi hr => ?_, fun s a v hp => ?_⟩
  · exact ⟨_, writeWord_served hw, afterStoreWord_byteAt_lo v, afterStoreWord_byteAt_hi v,
      afterStoreWord_onlyWrites s a v, s.afterStoreWord_pc a v, afterStoreWord_countersKept s a v,
      afterStoreWord_accessed s a v⟩
  · exact ⟨_, _, readWord_served hr, (joinBytes_toNat hi lo).trans (Nat.add_comm _ _),
      afterLoadWord_onlyWrites {} s a, s.afterLoadWord_pc a, afterLoadWord_countersKept s a, afterLoadWord_accessed hr⟩
  · have hr := readWord_plain a ((plainMemory_congr (s.afterStoreWord_params a v)).trans hp)
    rw [afterStoreWord_byteAt_lo v (isOpen_of_plain hp a), afterStoreWord_byteAt_hi v (isOpen_of_plain hp (a + 1)),
      joinBytes_hiByte_loByte] at hr
    exact ⟨_, _, writeWord_plain a v hp, hr⟩

end Sys2Proof.Machine
end

section
/-! Proofs of the statements of spec/30_encoding.md. The opcode map of R69 and the byte built from the formats of R62 to R66
are inverse to each other (`decodeOpcode_eq_some_iff`), so a list of bytes decodes to a line exactly if it begins with the
line's encoding (`decode_eq_ok_iff`). What a step does with the decoded byte follows from `step_of_aboutToStep`. -/

namespace Sys2Proof

/-! ### The opcode byte -/

/-- No two bytes of the opcode map hold one instruction: its byte is the one the formats build (R62 to R66, R69). -/
theorem encodeOpcode_of_decodeOpcode (op : Byte) : ∀ i ∈ decodeOpcode op, encodeOpcode i = op := by
  revert op
  decide

/-- The opcode map and the formats agree in both directions (R69). -/
theorem decodeOpcode_eq_some_iff {op : Byte} {i : Instr} : decodeOpcode op = some i ↔ op = encodeOpcode i := by
  constructor
  · intro h
    exact (encodeOpcode_of_decodeOpcode op i h).symm
  · rintro rfl
    exact Laws.DecodeEncode.all i

/-- The opcode map leaves no byte out but those R70 lists. -/
theorem mem_unassignedBytes_of_decodeOpcode (op : Byte) :
    decodeOpcode op = none → op ∈ Machine.unassignedBytes := by
  revert op
  decide

/-- The opcode map has no entry for the bytes R70 lists. -/
theorem decodeOpcode_of_mem_unassignedBytes {op : Byte} (h : op ∈ Machine.unassignedBytes) : decodeOpcode op = none := by
  have hall : (Machine.unassignedBytes.all fun b => (decodeOpcode b).isNone) = true := by decide
  exact Option.isNone_iff_eq_none.mp (List.all_eq_true.mp hall op h)

theorem decodeOpcode_eq_none_iff (op : Byte) : decodeOpcode op = none ↔ op ∈ Machine.unassignedBytes :=
  ⟨mem_unassignedBytes_of_decodeOpcode op, decodeOpcode_of_mem_unassignedBytes⟩

/-! ### A whole line -/

/-- Every instruction has its opcode byte (R61). -/
theorem Instr.length_pos (i : Instr) : 0 < i.length := by
  unfold Instr.length
  cases i.form <;> simp [Form.length]

theorem Line.wellFormed_iff (l : Line) : l.wellFormed = true ↔ l.imm.length + 1 = l.instr.length :=
  beq_iff_eq

theorem decode_of_unassigned {op : Byte} (tail : List Byte) (h : decodeOpcode op = none) :
    decode (op :: tail) = .error (.unassignedOpcode op) := by
  simp [decode, h]

theorem decode_of_truncated {op : Byte} {i : Instr} {tail : List Byte} (h : decodeOpcode op = some i)
    (ht : tail.length < i.length - 1) : decode (op :: tail) = .error (.truncated i) := by
  simp [decode, h, ht]

theorem decode_of_enough {op : Byte} {i : Instr} {tail : List Byte} (h : decodeOpcode op = some i)
    (ht : i.length - 1 ≤ tail.length) :
    decode (op :: tail) = .ok (⟨i, tail.take (i.length - 1)⟩, tail.drop (i.length - 1)) := by
  simp [decode, h, Nat.not_lt.mpr ht]

/-- The encoding of a well-formed line decodes to it, whatever follows (R61, R71). -/
theorem decode_encode_append {l : Line} (rest : List Byte) (h : l.wellFormed = true) :
    decode (encode l ++ rest) = .ok (l, rest) := by
  obtain ⟨i, imm⟩ := l
  have hn : i.length - 1 = imm.length := by
    have hw := (Line.wellFormed_iff _).mp h
    exact (Nat.eq_sub_of_add_eq hw).symm
  have ht : i.length - 1 ≤ (imm ++ rest).length := by simp [hn]
  have hd := decode_of_enough (Laws.DecodeEncode.all i) ht
  rwa [hn, List.take_left, List.drop_left] at hd

/-- What decodes is the encoding of a well-formed line and a rest, and nothing else does (R61, R70, R71). -/
theorem decode_eq_ok_iff {bytes rest : List Byte} {l : Line} :
    decode bytes = .ok (l, rest) ↔ l.wellFormed = true ∧ bytes = encode l ++ rest := by
  constructor
  · intro h
    cases bytes with
    | nil => cases h
    | cons op tail =>
      cases hd : decodeOpcode op with
      | none => simp [decode_of_unassigned tail hd] at h
      | some i =>
        rcases Nat.lt_or_ge tail.length (i.length - 1) with ht | ht
        · simp [decode_of_truncated hd ht] at h
        · rw [decode_of_enough hd ht] at h
          cases h
          constructor
          · rw [Line.wellFormed_iff, List.length_take_of_le ht, Nat.sub_add_cancel i.length_pos]
          · rw [encode, ← decodeOpcode_eq_some_iff.mp hd, List.cons_append, List.take_append_drop]
  · rintro ⟨hw, rfl⟩
    exact decode_encode_append rest hw

end Sys2Proof

namespace Sys2Proof.Machine

/-! ### The step of the decoded instruction -/

theorem nextInstr_of_default_table {s : State} (h : s.params.table = none) :
    s.nextInstr = decodeOpcode (s.readValue s.pc) := by
  simp [State.nextInstr, State.decodeByte, decodeWith, h]

/-- The fetched byte is decoded under the dispatch table in force before the fetch: no fetch changes it. -/
theorem decodeByte_fetched (s : State) : s.fetched.decodeByte (s.readValue s.pc) = s.nextInstr := rfl

theorem step_of_assigned {s : State} {i : Instr} (ha : AboutToStep s) (hc : s.canRead s.pc) (hi : s.nextInstr = some i) :
    step s = exec i s.fetched := by
  rw [step_of_aboutToStep ha hc, dispatch, decodeByte_fetched, hi]

theorem step_of_unassigned {s : State} (ha : AboutToStep s) (hc : s.canRead s.pc) (hi : s.nextInstr = none) :
    step s = .refused (.unassignedOpcode (s.readValue s.pc)) := by
  rw [step_of_aboutToStep ha hc, dispatch, decodeByte_fetched, hi]

/-! ### What an immediate leaves -/

theorem imm8_served {s : State} {n : Byte} (h : Served s [.read s.pc n]) : imm8 s = .next (n, s.afterFetch) := by
  obtain ⟨⟨hc, rfl⟩, -⟩ := h
  exact imm8_answers hc

theorem imm16_served {s : State} {lo hi : Byte} (h : Served s [.read s.pc lo, .read (s.pc + 1) hi]) :
    imm16 s = .next (joinBytes hi lo, s.afterFetch.afterFetch) := by
  obtain ⟨⟨hlo, rfl⟩, ⟨hhi, rfl⟩, -⟩ := h
  exact imm16_answers hlo hhi

/-- A fetch writes `PC` alone, which `OnlyWrites` leaves to a clause of its own. -/
theorem afterFetch_onlyWrites (w : Writes) (s : State) : OnlyWrites w s s.afterFetch := by
  constructor <;> intros <;> rfl

theorem afterFetch_countersKept (s : State) : CountersKept s s.afterFetch := ⟨rfl, rfl, rfl, rfl⟩

theorem afterFetch_accessed {s : State} {n : Byte} (h : Served s [.read s.pc n]) :
    Accessed [.read s.pc n] s s.afterFetch := by
  obtain ⟨⟨-, rfl⟩, -⟩ := h
  exact ⟨rfl, rfl⟩

theorem afterFetch_afterFetch_accessed {s : State} {lo hi : Byte}
    (h : Served s [.read s.pc lo, .read (s.pc + 1) hi]) :
    Accessed [.read s.pc lo, .read (s.pc + 1) hi] s s.afterFetch.afterFetch := by
  obtain ⟨⟨-, rfl⟩, ⟨-, rfl⟩, -⟩ := h
  exact ⟨by simp [State.imm0, State.afterAccess], rfl⟩

/-! ### The settled statements -/

/-- Settles O1: the opcode byte gives the instruction back, and its length takes the line's own immediate bytes. -/
theorem decodeOfEncodeGivesTheLineBack : Obligations.DecodeOfEncodeGivesTheLineBack :=
  fun _ rest h => decode_encode_append rest h

/-- Settles O2: the opcode byte is the instruction's own, and no byte after it is lost. -/
theorem decodedBytesAreTheLinesEncoding : Obligations.DecodedBytesAreTheLinesEncoding :=
  fun _ _ _ h => decode_eq_ok_iff.mp h

/-- Settles O3: the nine words are the bytes the formats build, so the opcode map reads them back; the table word is the
encoding of a line. -/
theorem specWordsDecodeToTheirInstructions : Obligations.SpecWordsDecodeToTheirInstructions := by
  have hw : decode (tableBytes 24 0xC234EA) = .ok (⟨.ld_mnn_A, [0x34, 0xC2]⟩, []) :=
    decode_encode_append (l := ⟨.ld_mnn_A, [0x34, 0xC2]⟩) [] rfl
  refine ⟨?_, ?_, ?_, ?_, ?_, ?_, ?_, ?_, ?_, by rw [decodeTableWord, hw]⟩ <;> exact decodeOpcode_eq_some_iff.mpr rfl

/-- Settles O4, by the bytes the opcode map leaves out and the step on a byte the table in force leaves out. -/
theorem unassignedOpcodesAreRefused : Obligations.UnassignedOpcodesAreRefused := by
  refine ⟨decodeOpcode_eq_none_iff, fun s ha hc hi => step_of_unassigned ha hc hi, fun s ha hc ht hm => ?_⟩
  have hi : s.nextInstr = none := (nextInstr_of_default_table ht).trans ((decodeOpcode_eq_none_iff _).mpr hm)
  exact step_of_unassigned ha hc hi

/-- Settles O5, by the step on a byte the table in force assigns. -/
theorem stepRunsTheDecodedInstruction : Obligations.StepRunsTheDecodedInstruction :=
  ⟨fun _ _ ha hc hi => step_of_assigned ha hc hi, fun _ ht => nextInstr_of_default_table ht⟩

/-- Settles O20, by the states after one fetch and after two. -/
theorem immediatesComeFromPcAndAdvanceIt : Obligations.ImmediatesComeFromPcAndAdvanceIt := by
  refine ⟨fun s n h => ?_, fun s lo hi h => ?_⟩
  · exact ⟨_, imm8_served h, rfl, afterFetch_onlyWrites {} s, afterFetch_countersKept s, afterFetch_accessed h⟩
  · have hn : (joinBytes hi lo).toNat = lo.toNat + 256 * hi.toNat := (joinBytes_toNat hi lo).trans (Nat.add_comm _ _)
    have hpc : s.afterFetch.afterFetch.pc = s.pc + 2 := by simp [BitVec.add_assoc]
    exact ⟨_, _, imm16_served h, hn, hpc, (afterFetch_onlyWrites {} s).trans (afterFetch_onlyWrites {} _),
      (afterFetch_countersKept s).trans (afterFetch_countersKept _), afterFetch_afterFetch_accessed h⟩

end Sys2Proof.Machine
end

section
/-! Proofs of the statements of spec/40_step_clock_control.md: the clock accounting, the turn of an idle core, and the two
control instructions. `Clock` writes the counters alone, and the two control instructions have no access that could fail. -/

namespace Sys2Proof.Machine

/-! ### Clock accounting -/

/-- An unbounded total does not wrap (R83). -/
@[simp] theorem wrapClock_none (n : Nat) : wrapClock none n = n := rfl

/-- A total of finite width wraps at it (R83). -/
@[simp] theorem wrapClock_some (k n : Nat) : wrapClock (some k) n = n % 2 ^ k := rfl

theorem clock_onlyWrites (w : Writes) (s : State) (mc tc : Nat) : OnlyWrites w s (s.clock mc tc) := by
  constructor <;> intros <;> rfl

theorem clock_accessed (s : State) (mc tc : Nat) : Accessed [] s (s.clock mc tc) :=
  ⟨(List.append_nil s.bus).symm, rfl⟩

/-- The forms R83 lists are those whose cost in the table of R199 has the default ratio. -/
theorem formCost_defaultRatio (f : Form) : (formCost f).2 = 4 * (formCost f).1 ↔ hasDefaultRatio f = true := by
  cases f with
  | alu o x => cases x <;> simp [formCost, hasDefaultRatio]
  | _ => simp [formCost, hasDefaultRatio]

/-! ### The control instructions -/

theorem setHalted_onlyWrites {w : Writes} (s : State) (b : Bool) (h : w.halted = true) :
    OnlyWrites w s (s.setHalted b) where
  regs _ _ := rfl
  flags _ _ := rfl
  sp _ := rfl
  halted hw := Bool.noConfusion (h.symm.trans hw)
  stopped := rfl
  mem _ _ := rfl
  schedule := rfl
  params := rfl

/-- The state `HALT` leaves has `halted` set and the clock advanced, and is else the one before (R88). -/
theorem formNext_halt_onlyWrites (s : State) : OnlyWrites { halted := true } s (formNext .halt s) :=
  (setHalted_onlyWrites s true rfl).trans (clock_onlyWrites _ _ 1 4)

/-- An instruction whose form makes no access completes in every state. -/
theorem exec_of_no_access {i : Instr} {s : State} (h : s.accessesOf i.form = []) :
    exec i s = .next (formNext i.form s) ∧ Accessed [] s (formNext i.form s) :=
  exec_served trivial h

/-! ### The settled statements -/

/-- Settles O11, by the counters of each form's state. -/
theorem everyInstructionChargesItsCost : Obligations.EveryInstructionChargesItsCost := by
  intro i s t h
  rw [exec_next h]
  exact formNext_charged i.form s

/-- Settles O6, by the turn of an idle core. -/
theorem idleCoreChangesNothing : Obligations.IdleCoreChangesNothing :=
  fun _ ht hr => step_of_idle ht hr

/-- Settles O25: the totals by the width of the counters, the default ratio by the cost of each form. -/
theorem clockRecordsAndAdds : Obligations.ClockRecordsAndAdds := by
  refine ⟨fun s mc tc => ?_, fun i => formCost_defaultRatio i.form⟩
  refine ⟨rfl, rfl, fun hb => ?_, fun k hb => ?_, clock_onlyWrites {} s mc tc, rfl, clock_accessed s mc tc⟩
  · simp [hb]
  · simp [hb]

/-- Settles O31, by the states of the two forms, which make no access. -/
theorem nopAndHaltResults : Obligations.NopAndHaltResults := by
  constructor
  · intro s
    obtain ⟨he, ha⟩ := exec_of_no_access (i := .nop) (s := s) rfl
    exact ⟨_, he, rfl, clock_onlyWrites {} s 1 4, formNext_charged .nop s, ha⟩
  · intro s
    obtain ⟨he, ha⟩ := exec_of_no_access (i := .halt) (s := s) rfl
    exact ⟨_, he, rfl, rfl, formNext_halt_onlyWrites s, formNext_charged .halt s, ha⟩

end Sys2Proof.Machine
end

section
/-! Proofs of the statements of spec/41_load.md. What a load may write is read off its form and its row of accesses
(`formNext_onlyWrites`, for every form of the table): registers and `SP` by the form, memory at the addresses of the writes
of the row alone (`formNext_byteAt`). Each statement is then the result of one form beside `exec_form_served`. -/

namespace Sys2Proof.Machine

/-! ### The memory a row of accesses leaves -/

/-- The address an access writes. -/
def Access.writes? : Access → Option Word
  | .read _ _ => none
  | .write a _ => some a

/-- The addresses a row of accesses writes, in order. -/
def writtenAddrs (row : List Access) : List Word := row.filterMap Access.writes?

theorem afterAccess_isOpen (s : State) (x : Access) (b : Word) : (s.afterAccess x).isOpen b = s.isOpen b := by
  cases x <;> rfl

theorem afterAccesses_append (s : State) (xs ys : List Access) :
    s.afterAccesses (xs ++ ys) = (s.afterAccesses xs).afterAccesses ys := by
  induction xs generalizing s with
  | nil => rfl
  | cons x xs ih => exact ih (s.afterAccess x)

/-- An address no access of a row writes keeps its byte. -/
theorem afterAccesses_byteAt_kept {s : State} {row : List Access} {b : Word} (h : b ∉ writtenAddrs row) :
    (s.afterAccesses row).byteAt b = s.byteAt b := by
  induction row generalizing s with
  | nil => rfl
  | cons x rest ih =>
    cases x with
    | read a v => exact ih h
    | write a v =>
      obtain ⟨hne, hrest⟩ := List.ne_and_not_mem_of_not_mem_cons h
      calc ((s.storeByte a v).afterAccesses rest).byteAt b
        _ = (s.storeByte a v).byteAt b := ih hrest
        _ = s.byteAt b := by simp [hne]

/-- In RAM a byte that a row writes, and writes no more after that, is the one left. -/
theorem afterAccesses_byteAt_written {s : State} {before after : List Access} {a : Word} {v : Byte}
    (ho : s.isOpen a = false) (h : a ∉ writtenAddrs after) :
    (s.afterAccesses (before ++ .write a v :: after)).byteAt a = v := by
  induction before generalizing s with
  | nil => exact (afterAccesses_byteAt_kept h).trans (afterStore_byteAt_same v ho)
  | cons x rest ih => exact ih ((afterAccess_isOpen s x a).trans ho)

/-- The collaborator answers a read in a served row with the byte it has after the accesses before it. -/
theorem readValue_of_served {s : State} {before rest : List Access} {a : Word} {v : Byte}
    (h : Served s (before ++ .read a v :: rest)) : (s.afterAccesses before).readValue a = v := by
  induction before generalizing s with
  | nil =>
    obtain ⟨⟨-, hv⟩, -⟩ := h
    exact hv
  | cons x before ih =>
    obtain ⟨-, hrest⟩ := h
    exact ih hrest

theorem imm0_of_served {s : State} {n : Byte} {rest : List Access} (h : Served s (.read s.pc n :: rest)) : s.imm0 = n :=
  readValue_of_served (before := []) h

theorem imm1_of_served {s : State} {lo hi : Byte} {rest : List Access}
    (h : Served s (.read s.pc lo :: .read (s.pc + 1) hi :: rest)) : s.imm1 = hi :=
  readValue_of_served (before := [.read s.pc lo]) h

/-- Two states with the same RAM, the same answers to come and the same parameters. -/
structure SameMemory (s u : State) : Prop where
  params : u.params = s.params
  answers : u.answers = s.answers
  mem : u.mem = s.mem

/-- What a store leaves on the collaborator's side depends on that side alone. -/
theorem SameMemory.store {s u : State} (h : SameMemory s u) (a : Word) (v : Byte) :
    SameMemory (s.storeByte a v) (u.afterStore a v) := by
  have ho : u.isOpen a = s.isOpen a := isOpen_congr h.params a
  have ha : u.answer a = s.answer a := by simp only [State.answer, ho, h.answers]
  exact ⟨h.params, by simp [State.takeAnswer, ho, h.answers],
    by simp only [State.afterStore, State.noteAccess, State.storeByte, ha, h.mem]⟩

theorem sameMemory_afterFetch_afterFetch (s : State) :
    SameMemory (s.afterAccesses s.immReads) s.afterFetch.afterFetch :=
  ⟨rfl, rfl, rfl⟩

/-! ### What a form may write -/

/-- The registers each form writes (R12). -/
def formRegs : Form → List Reg
  | .ldRegReg d _ => [d]
  | .ldRegImm r | .incReg r => [r]
  | .ldPairImm p | .incPair p | .pop p => [p.hi, p.lo]
  | .ldAFromHL | .ldAFromAbs | .ldhAFromImm | .ldhAFromC | .popAF => [.A]
  | .alu .cp _ => []
  | .alu _ _ => [.A]
  | .addHL _ | .ldHLSpOffset => [.H, .L]
  | _ => []

/-- Whether a form writes `SP` (R16). -/
def formWritesSp : Form → Bool
  | .ldSpImm | .ldSpFromHL | .incSp | .push _ | .pushAF | .pop _ | .popAF => true
  | _ => false

/-- Everything a form may write in a state. -/
def State.formWrites (s : State) (f : Form) : Writes where
  regs := formRegs f
  flags := formFlags f
  sp := formWritesSp f
  halted := decide (f = .halt)
  mem := writtenAddrs (s.accessesOf f)

theorem setPair_reg_of_ne {s : State} {p : Pair} {r : Reg} (v : Word) (h : r ∉ [p.hi, p.lo]) :
    (s.setPair p v).reg r = s.reg r := by
  simp only [List.mem_cons, List.not_mem_nil, or_false, not_or] at h
  simp [State.setPair, h]

theorem formNext_reg {f : Form} {r : Reg} (s : State) (h : r ∉ formRegs f) : (formNext f s).reg r = s.reg r := by
  cases f with
  | alu o x =>
    cases o with
    | cp => simp +contextual [formNext, aluResult]
    | _ => simp_all [formNext, formRegs]
  | incPair p => exact setPair_reg_of_ne _ h
  | addHL p => exact setPair_reg_of_ne (p := .HL) _ h
  | ldHLSpOffset => exact setPair_reg_of_ne (p := .HL) _ h
  | _ => simp_all [formNext, formRegs]

theorem formNext_sp_kept {f : Form} (s : State) (h : formWritesSp f = false) : (formNext f s).sp = s.sp := by
  rw [formNext_sp]
  cases f <;> simp [formWritesSp] at h ⊢

/-- The memory of a form's state is the one its row of accesses leaves. -/
theorem formNext_mem (f : Form) (s : State) : (formNext f s).mem = (s.afterAccesses (s.accessesOf f)).mem := by
  have h := sameMemory_afterFetch_afterFetch s
  cases f with
  | alu o x => cases x <;> rfl
  | push p => rw [State.accessesOf, ← sub_one_sub_one]; rfl
  | pushAF => rw [State.accessesOf, ← sub_one_sub_one]; rfl
  | ldAbsFromA =>
    rw [State.accessesOf, afterAccesses_append, formNext, State.clock_mem]
    exact (h.store _ _).mem
  | ldAbsFromSp =>
    rw [State.accessesOf, afterAccesses_append, formNext, State.clock_mem]
    exact ((h.store _ _).store _ _).mem
  | ldAFromAbs => exact (show (formNext .ldAFromAbs s).mem = s.mem by simp [formNext])
  | popAF => exact (show (formNext .popAF s).mem = s.mem by simp [formNext])
  | _ => rfl

theorem formNext_byteAt (f : Form) (s : State) (b : Word) :
    (formNext f s).byteAt b = (s.afterAccesses (s.accessesOf f)).byteAt b :=
  congrArg (Memory.read · b.toNat) (formNext_mem f s)

/-- Nothing changes but what the form writes. -/
theorem formNext_onlyWrites (f : Form) (s : State) : OnlyWrites (s.formWrites f) s (formNext f s) where
  regs _ hr := formNext_reg s hr
  flags _ hf := formNext_flag s hf
  sp hw := formNext_sp_kept s hw
  halted hw := by
    have hd : decide (f = .halt) = false := hw
    rw [formNext_halted, hd, Bool.false_or]
  stopped := formNext_stopped f s
  mem b hb := (formNext_byteAt f s b).trans (afterAccesses_byteAt_kept hb)
  schedule := formNext_schedule f s
  params := formNext_params f s

/-- In RAM a byte that a form writes, and writes no more after that, is the one left. -/
theorem formNext_byteAt_written {f : Form} {s : State} {before after : List Access} {a : Word} {v : Byte}
    (e : s.accessesOf f = before ++ .write a v :: after) (h : a ∉ writtenAddrs after) (ho : s.isOpen a = false) :
    (formNext f s).byteAt a = v := by
  rw [formNext_byteAt, e]
  exact afterAccesses_byteAt_written ho h

/-- An instruction whose accesses are served completes, writes what its form may write, is charged its cost, and makes those
accesses. -/
theorem exec_form_served {i : Instr} {f : Form} {s : State} {row : List Access} (hi : i.form = f) (h : Served s row)
    (e : s.accessesOf f = row) :
    exec i s = .next (formNext f s) ∧ OnlyWrites (s.formWrites f) s (formNext f s) ∧
      Charged (formCost f).1 (formCost f).2 s (formNext f s) ∧ Accessed row s (formNext f s) := by
  subst hi
  obtain ⟨he, ha⟩ := exec_served h e
  exact ⟨he, formNext_onlyWrites i.form s, formNext_charged i.form s, ha⟩

/-! ### The high page -/

/-- The offset is added to 0xFF00 as an unsigned number (R50, R103). -/
theorem highPage_toNat (offset : Byte) : (highPage offset).toNat = 0xFF00 + offset.toNat :=
  joinBytes_toNat 0xFF offset

end Sys2Proof.Machine

/-! ### The settled statements, in a namespace of their own: `Machine.loadAFromHL` is the model's operation -/

namespace Sys2Proof.Machine.LoadStatements

/-- Settles O32, by the state of the form, which makes no access. -/
theorem loadRegisterFromRegister : Obligations.LoadRegisterFromRegister := by
  intro i d r s hi
  obtain ⟨he, hw, hc, ha⟩ := exec_form_served (s := s) (row := []) hi trivial rfl
  exact ⟨_, he, by simp [formNext], rfl, hw, hc, ha⟩

/-- Settles O33: the byte at `PC` goes to the register. -/
theorem loadRegisterFromImmediate : Obligations.LoadRegisterFromImmediate := by
  intro i r s n hi h
  obtain rfl := imm0_of_served h
  obtain ⟨he, hw, hc, ha⟩ := exec_form_served hi h rfl
  exact ⟨_, he, by simp [formNext], rfl, hw, hc, ha⟩

/-- Settles O34: the two bytes go to the two halves, which are two registers. -/
theorem loadPairFromImmediate : Obligations.LoadPairFromImmediate := by
  intro i p s lo hi hf h
  obtain rfl := imm0_of_served h
  obtain rfl := imm1_of_served h
  obtain ⟨he, hw, hc, ha⟩ := exec_form_served hf h rfl
  exact ⟨_, he, by simp [formNext], by simp [formNext], formNext_pc _ s, hw, hc, ha⟩

/-- Settles O35: `SP` is the immediate word. -/
theorem loadSpFromImmediate : Obligations.LoadSpFromImmediate := by
  intro s lo hi h
  obtain rfl := imm0_of_served h
  obtain rfl := imm1_of_served h
  obtain ⟨he, hw, hc, ha⟩ := exec_form_served (i := .ld_SP_nn) rfl h rfl
  have hsp : s.immWord.toNat = s.imm0.toNat + 256 * s.imm1.toNat := (joinBytes_toNat s.imm1 s.imm0).trans (Nat.add_comm _ _)
  exact ⟨_, he, hsp, formNext_pc _ s, hw, hc, ha⟩

/-- Settles O36: the byte read at `HL` goes to `A`. -/
theorem loadAFromHL : Obligations.LoadAFromHL := by
  intro s v h
  obtain rfl := readValue_of_served (before := []) h
  obtain ⟨he, hw, hc, ha⟩ := exec_form_served (i := .ld_A_mHL) rfl h rfl
  exact ⟨_, he, rfl, rfl, hw, hc, ha⟩

/-- Settles O37: each of the three forms makes the one write. -/
theorem storeRegisterAtPair : Obligations.StoreRegisterAtPair := by
  intro i p r s hi hs
  rcases hi with ⟨hi, rfl⟩ | ⟨hi, rfl, rfl⟩ | ⟨hi, rfl, rfl⟩
  all_goals
    obtain ⟨he, hw, hc, ha⟩ := exec_form_served (row := [.write _ (s.reg _)]) hi ⟨hs, trivial⟩ rfl
    exact ⟨_, he, formNext_byteAt_written (before := []) rfl List.not_mem_nil, rfl, hw, hc, ha⟩

/-- Settles O38: the one write of the row is the byte at `PC`, at `HL`. -/
theorem storeImmediateAtHL : Obligations.StoreImmediateAtHL := by
  intro s n h
  obtain rfl := imm0_of_served h
  obtain ⟨he, hw, hc, ha⟩ := exec_form_served (i := .ld_mHL_n) rfl h rfl
  exact ⟨_, he, formNext_byteAt_written (before := s.immRead) rfl List.not_mem_nil, rfl, hw, hc, ha⟩

/-- Settles O39: the one write of the row is `A`, at the immediate word. -/
theorem storeAAtAbsolute : Obligations.StoreAAtAbsolute := by
  rintro s lo hi nn rfl h
  obtain rfl := imm0_of_served h
  obtain rfl := imm1_of_served h
  obtain ⟨he, hw, hc, ha⟩ := exec_form_served (i := .ld_mnn_A) rfl h rfl
  exact ⟨_, he, formNext_byteAt_written (before := s.immReads) rfl List.not_mem_nil, formNext_pc _ s, hw, hc, ha⟩

/-- Settles O40: the row writes the low byte, then the high byte at another address. -/
theorem storeSpAtAbsolute : Obligations.StoreSpAtAbsolute := by
  rintro s lo hi nn rfl h
  obtain rfl := imm0_of_served h
  obtain rfl := imm1_of_served h
  obtain ⟨he, hw, hc, ha⟩ := exec_form_served (i := .ld_mnn_SP) rfl h rfl
  have hlo : s.immWord ∉ [s.immWord + 1] := by simp
  refine ⟨_, he, ?_, ?_, formNext_pc _ s, hw, hc, ha⟩
  · exact formNext_byteAt_written (before := s.immReads) rfl hlo
  · exact formNext_byteAt_written (before := s.immReads ++ [.write s.immWord (loByte s.sp)]) rfl List.not_mem_nil

/-- Settles O41: the byte read at the immediate word goes to `A`. -/
theorem loadAFromAbsolute : Obligations.LoadAFromAbsolute := by
  rintro s lo hi v nn rfl h
  obtain rfl := imm0_of_served h
  obtain rfl := imm1_of_served h
  obtain rfl := readValue_of_served (before := s.immReads) h
  obtain ⟨he, hw, hc, ha⟩ := exec_form_served (i := .ld_A_mnn) rfl h rfl
  exact ⟨_, he, rfl, formNext_pc _ s, hw, hc, ha⟩

/-- Settles O42: the one write of each row is `A`, at the high-page address. -/
theorem storeAInHighPage : Obligations.StoreAInHighPage := by
  refine ⟨highPage_toNat, fun s n h => ?_, fun s h => ?_⟩
  · obtain rfl := imm0_of_served h
    obtain ⟨he, hw, hc, ha⟩ := exec_form_served (i := .ldh_mn_A) rfl h rfl
    exact ⟨_, he, formNext_byteAt_written (before := s.immRead) rfl List.not_mem_nil, rfl, hw, hc, ha⟩
  · obtain ⟨he, hw, hc, ha⟩ := exec_form_served (i := .ld_mC_A) rfl h rfl
    exact ⟨_, he, formNext_byteAt_written (before := []) rfl List.not_mem_nil, rfl, hw, hc, ha⟩

/-- Settles O43: the byte read at the high-page address goes to `A`. -/
theorem loadAFromHighPage : Obligations.LoadAFromHighPage := by
  refine ⟨highPage_toNat, fun s n v h => ?_, fun s v h => ?_⟩
  · obtain rfl := imm0_of_served h
    obtain rfl := readValue_of_served (before := s.immRead) h
    obtain ⟨he, hw, hc, ha⟩ := exec_form_served (i := .ldh_A_mn) rfl h rfl
    exact ⟨_, he, rfl, rfl, hw, hc, ha⟩
  · obtain rfl := readValue_of_served (before := []) h
    obtain ⟨he, hw, hc, ha⟩ := exec_form_served (i := .ld_A_mC) rfl h rfl
    exact ⟨_, he, rfl, rfl, hw, hc, ha⟩

/-- Settles O44: `SP` is the pair `HL`. -/
theorem loadSpFromHL : Obligations.LoadSpFromHL := by
  intro s
  obtain ⟨he, hw, hc, ha⟩ := exec_form_served (i := .ld_SP_HL) (s := s) (row := []) rfl trivial rfl
  exact ⟨_, he, joinBytes_toNat (s.reg .H) (s.reg .L), rfl, hw, hc, ha⟩

end Sys2Proof.Machine.LoadStatements
end

section
/-! Proofs of the statements of spec/42_alu8.md. The rule of each core (the adder, the subtractor, the logic operations, the
increment) is proved once in exact arithmetic; `exec_alu` says once how every ALU instruction ends, whatever its operand. A
statement about an instruction is then the rule of its core beside that end: `A` and the flags of `formNext` are the core's
two components by definition. -/

namespace Sys2Proof.Machine

/-! ### The rules of the cores -/

theorem byte_beq_zero_iff (v : Byte) : (v == 0) = true ↔ v.toNat = 0 := by
  rw [beq_iff_eq, ← BitVec.toNat_inj]
  rfl

theorem addCore_toNat (a x : Byte) (cin : Bool) : (addCore a x cin).1.toNat = (a.toNat + x.toNat + cin.toNat) % 256 :=
  BitVec.toNat_ofNat _ 8

theorem subCore_toNat (a x : Byte) (cin : Bool) :
    ((subCore a x cin).1.toNat : Int) = ((a.toNat : Int) - x.toNat - cin.toNat) % 256 :=
  ofInt8_toNat _

/-- Settles O45, by the narrowing of the exact sum and the low nibble as a remainder. -/
theorem adderFollowsItsRule : Obligations.AdderFollowsItsRule := by
  intro a x cin
  have hr := addCore_toNat a x cin
  refine ⟨hr, ?_, rfl, ?_, decide_eq_true_iff⟩
  · exact hr ▸ byte_beq_zero_iff (addCore a x cin).1
  · rw [← lowNibble_eq, ← lowNibble_eq]
    exact decide_eq_true_iff

/-- Settles O46, by the narrowing of the exact difference and the low nibble as a remainder. -/
theorem subtractorFollowsItsRule : Obligations.SubtractorFollowsItsRule := by
  intro a x cin
  have hr := subCore_toNat a x cin
  refine ⟨hr, ?_, rfl, ?_, decide_eq_true_iff⟩
  · rw [← hr, Int.natCast_eq_zero]
    exact byte_beq_zero_iff (subCore a x cin).1
  · rw [← lowNibble_eq, ← lowNibble_eq]
    exact decide_eq_true_iff

/-- A difference without borrow in is zero exactly if the two bytes are equal (R138). -/
theorem subCore_z_iff_eq (a x : Byte) : (subCore a x false).2.z = true ↔ a = x := by
  obtain ⟨-, hz, -⟩ := subtractorFollowsItsRule a x false
  have ha := a.isLt
  have hx := x.isLt
  rw [hz, ← BitVec.toNat_inj, Bool.toNat_false]
  omega

theorem incCore_toNat (old : Byte) (f : Flags) : (incCore old f).1.toNat = (old.toNat + 1) % 256 :=
  BitVec.toNat_ofNat _ 8

/-- The increment is zero exactly after 0xFF (R140). -/
theorem incCore_z_iff (old : Byte) (f : Flags) : (incCore old f).2.z = true ↔ old = 0xFF := by
  have hz : (incCore old f).2.z = true ↔ (incCore old f).1.toNat = 0 := byte_beq_zero_iff _
  have hlt := old.isLt
  have hff : (0xFF : Byte).toNat = 255 := rfl
  rw [hz, incCore_toNat, ← BitVec.toNat_inj, hff]
  omega

/-- The increment carries out of the low nibble exactly after 0xF (R140). -/
theorem incCore_h_iff (old : Byte) (f : Flags) : (incCore old f).2.h = true ↔ old.toNat % 16 = 0xF := by
  rw [← lowNibble_eq]
  exact beq_iff_eq

/-! ### Carry and result together -/

theorem toNat_of_eq_true_iff {b : Bool} {p : Prop} [Decidable p] (h : b = true ↔ p) : b.toNat = if p then 1 else 0 := by
  rw [Bool.eq_iff_iff.mpr (h.trans decide_eq_true_iff.symm)]
  exact Bool.cond_decide p 1 0

/-- Bit 4 of a sum of two nibbles and a carry is whether it exceeds 0xF. -/
theorem testBit_four_iff {n : Nat} (h : n < 32) : n.testBit 4 = true ↔ n > 0xF := by
  rw [Nat.testBit_eq_decide_div_mod_eq, decide_eq_true_iff]
  omega

/-- Settles O47, from the two rules: a carry is the quotient by 256 of the exact sum, a borrow that of the difference. -/
theorem aluCarriesGiveTheExactInteger : Obligations.AluCarriesGiveTheExactInteger := by
  intro a x cin
  obtain ⟨hsum, -, -, hsumH, hsumC⟩ := adderFollowsItsRule a x cin
  obtain ⟨hdiff, -, -, hdiffH, hdiffC⟩ := subtractorFollowsItsRule a x cin
  have ha := a.isLt
  have hx := x.isLt
  have hc := cin.toNat_le
  refine ⟨?_, ?_, ?_, ?_⟩
  · rw [hsum, toNat_of_eq_true_iff hsumC]
    split <;> omega
  · rw [hdiff, toNat_of_eq_true_iff hdiffC]
    split <;> omega
  · exact Bool.eq_iff_iff.mpr (hsumH.trans (testBit_four_iff (by omega)).symm)
  · rw [hdiffH]
    omega

/-! ### How an ALU instruction ends -/

theorem operandAccesses_served {s : State} {x : Operand8} (h : s.canReadOperand x) : Served s (s.operandAccesses x) := by
  cases x with
  | reg r => trivial
  | memHL => exact ⟨⟨h, rfl⟩, trivial⟩

/-- Reading the operand writes no memory. -/
theorem writtenAddrs_operandAccesses (s : State) (x : Operand8) : writtenAddrs (s.operandAccesses x) = [] := by
  cases x <;> rfl

theorem formCost_alu (o : AluOp) (x : Operand8) : formCost (.alu o x) = (1, if x = .memHL then 8 else 4) := by
  cases x <;> rfl

/-- Every ALU instruction whose operand is answered completes; it writes the flags and, but for `CP`, `A` (R121). -/
theorem exec_alu {i : Instr} {o : AluOp} {x : Operand8} {s : State} (hi : i.form = .alu o x) (h : s.canReadOperand x) :
    exec i s = .next (formNext (.alu o x) s) ∧ (formNext (.alu o x) s).pc = s.pc ∧
      OnlyWrites { regs := formRegs (.alu o x), flags := [.Z, .N, .Hf, .Cf] } s (formNext (.alu o x) s) ∧
      Charged 1 (if x = .memHL then 8 else 4) s (formNext (.alu o x) s) ∧
      Accessed (s.operandAccesses x) s (formNext (.alu o x) s) := by
  obtain ⟨he, hw, hc, ha⟩ := exec_form_served hi (operandAccesses_served h) rfl
  rw [formCost_alu] at hc
  rw [State.formWrites, State.accessesOf, writtenAddrs_operandAccesses] at hw
  exact ⟨he, by simp [formNext], hw, hc, ha⟩

/-! ### The settled statements about instructions -/

/-- Settles O48: the adder's rule, without carry in for `ADD` and with `Cf` for `ADC`. -/
theorem addAndAdcResults : Obligations.AddAndAdcResults := by
  intro i o x s cin hi ho hx
  obtain ⟨he, hpc, hw, hcost, ha⟩ := exec_alu hi hx
  rcases ho with ⟨rfl, rfl⟩ | ⟨rfl, rfl⟩
  · obtain ⟨hv, hz, hn, hh, hc⟩ := adderFollowsItsRule (s.reg .A) (s.operandValue x) false
    exact ⟨_, he, hv, hz, hn, hh, hc, hpc, hw, hcost, ha⟩
  · obtain ⟨hv, hz, hn, hh, hc⟩ := adderFollowsItsRule (s.reg .A) (s.operandValue x) (s.flag .Cf)
    exact ⟨_, he, hv, hz, hn, hh, hc, hpc, hw, hcost, ha⟩

/-- Settles O49: the subtractor's rule, without borrow in for `SUB` and with `Cf` for `SBC`. -/
theorem subAndSbcResults : Obligations.SubAndSbcResults := by
  intro i o x s cin hi ho hx
  obtain ⟨he, hpc, hw, hcost, ha⟩ := exec_alu hi hx
  rcases ho with ⟨rfl, rfl⟩ | ⟨rfl, rfl⟩
  · obtain ⟨hv, hz, hn, hh, hc⟩ := subtractorFollowsItsRule (s.reg .A) (s.operandValue x) false
    exact ⟨_, he, hv, hz, hn, hh, hc, hpc, hw, hcost, ha⟩
  · obtain ⟨hv, hz, hn, hh, hc⟩ := subtractorFollowsItsRule (s.reg .A) (s.operandValue x) (s.flag .Cf)
    exact ⟨_, he, hv, hz, hn, hh, hc, hpc, hw, hcost, ha⟩

/-- Settles O50: the subtractor's rule without borrow in; `CP` writes no register. -/
theorem compareResults : Obligations.CompareResults := by
  intro i x s hi hx
  obtain ⟨he, hpc, hw, hcost, ha⟩ := exec_alu hi hx
  obtain ⟨-, -, hn, hh, hc⟩ := subtractorFollowsItsRule (s.reg .A) (s.operandValue x) false
  exact ⟨_, he, subCore_z_iff_eq _ _, hn, hh, hc, hpc, hw, hcost, ha⟩

/-- Settles O51: the core of each of the three operations. -/
theorem logicResults : Obligations.LogicResults := by
  intro i o x s v hi ho hx
  obtain ⟨he, hpc, hw, hcost, ha⟩ := exec_alu hi hx
  rcases ho with ⟨rfl, rfl⟩ | ⟨rfl, rfl⟩ | ⟨rfl, rfl⟩
  · exact ⟨_, he, rfl, beq_iff_eq, rfl, iff_of_true rfl rfl, rfl, hpc, hw, hcost, ha⟩
  · exact ⟨_, he, rfl, beq_iff_eq, rfl, iff_of_false nofun nofun, rfl, hpc, hw, hcost, ha⟩
  · exact ⟨_, he, rfl, beq_iff_eq, rfl, iff_of_false nofun nofun, rfl, hpc, hw, hcost, ha⟩

/-- Settles O52: the increment of the register, which makes no access. -/
theorem incrementRegister : Obligations.IncrementRegister := by
  intro i r s hi
  obtain ⟨he, hw, hc, ha⟩ := exec_form_served (s := s) (row := []) hi trivial rfl
  have hv : (formNext (.incReg r) s).reg r = (incCore (s.reg r) s.flags).1 := by simp [formNext]
  exact ⟨_, he, hv ▸ incCore_toNat _ _, incCore_z_iff _ s.flags, rfl, incCore_h_iff _ s.flags, rfl, hw, hc, ha⟩

/-- Settles O53: the byte read at `HL`, incremented, is the one write of the row. -/
theorem incrementMemoryAtHL : Obligations.IncrementMemoryAtHL := by
  intro s old new hnew h
  obtain rfl := readValue_of_served (before := []) h
  obtain rfl : new = s.readValue (s.pair .HL) + 1 := BitVec.eq_of_toNat_eq hnew
  obtain ⟨he, hw, hc, ha⟩ := exec_form_served (i := .inc_mHL) rfl h rfl
  have hpc : (formNext .incHLMem s).pc = s.pc := by simp [formNext]
  exact ⟨_, he, formNext_byteAt_written (before := [.read _ _]) rfl List.not_mem_nil, incCore_z_iff _ s.flags, rfl,
    incCore_h_iff _ s.flags, hpc, hw, hc, ha⟩

end Sys2Proof.Machine
end

section
/-! Proofs of the statements of spec/43_alu16.md. The rule of the 16-bit adder is proved once in exact arithmetic. The frame,
the cost and the (empty) row of accesses are those of the form, by `exec_form_served`. -/

namespace Sys2Proof.Machine

/-! ### The rule of the 16-bit adder -/

theorem addWordCore_toNat (a x : Word) (f : Flags) : (addWordCore a x f).1.toNat = (a.toNat + x.toNat) % 65536 :=
  BitVec.toNat_ofNat _ 16

/-- The half-carry of the 16-bit adder is the carry out of bit 11 (R153). -/
theorem addWordCore_h_iff (a x : Word) (f : Flags) :
    (addWordCore a x f).2.h = true ↔ a.toNat % 4096 + x.toNat % 4096 > 0x0FFF := by
  rw [← and_0FFF_toNat, ← and_0FFF_toNat]
  exact decide_eq_true_iff

/-- The carry of the 16-bit adder is the carry out of bit 15 (R153). -/
theorem addWordCore_c_iff (a x : Word) (f : Flags) : (addWordCore a x f).2.c = true ↔ a.toNat + x.toNat > 0xFFFF :=
  decide_eq_true_iff

/-! ### The pair a form leaves -/

/-- A pair reads as the word written to it (R13). -/
theorem setPair_pair_same (s : State) (p : Pair) (v : Word) : (s.setPair p v).pair p = v := by
  obtain ⟨h, -⟩ := pairViewsRoundTrip
  exact (h s p v).1

theorem formNext_incPair_pair (p : Pair) (s : State) : (formNext (.incPair p) s).pair p = s.pair p + 1 :=
  setPair_pair_same s p _

theorem formNext_addHL_pair (p : Pair) (s : State) :
    (formNext (.addHL p) s).pair .HL = (addWordCore (s.pair .HL) (s.pair p) s.flags).1 :=
  setPair_pair_same _ .HL _

/-! ### The settled statements -/

/-- Settles O55: `HL` and the flags are the components of the 16-bit adder, which keeps `Z`. -/
theorem addPairToHL : Obligations.AddPairToHL := by
  intro i p s hi
  obtain ⟨he, hw, hcost, ha⟩ := exec_form_served (s := s) (row := []) hi trivial rfl
  have hv := formNext_addHL_pair p s ▸ addWordCore_toNat (s.pair .HL) (s.pair p) s.flags
  exact ⟨_, he, hv, rfl, addWordCore_h_iff _ _ s.flags, addWordCore_c_iff _ _ s.flags, rfl, hw, hcost, ha⟩

/-- Settles O54: the successor of the pair, and of `SP`; no flag is among the forms' writes. -/
theorem incrementWords : Obligations.IncrementWords := by
  constructor
  · intro i p s hi
    obtain ⟨he, hw, hc, ha⟩ := exec_form_served (s := s) (row := []) hi trivial rfl
    exact ⟨_, he, formNext_incPair_pair p s ▸ BitVec.toNat_add (s.pair p) 1, rfl, hw, hc, ha⟩
  · intro s
    obtain ⟨he, hw, hc, ha⟩ := exec_form_served (i := .inc_SP) (s := s) (row := []) rfl trivial rfl
    exact ⟨_, he, BitVec.toNat_add s.sp 1, rfl, hw, hc, ha⟩

end Sys2Proof.Machine
end

section
/-! Proofs of the statements of spec/44_ldhl_sp_e.md. The rule of the stack-pointer offset is proved once in exact
arithmetic: its value from the sign extension of `e`, its carries from the raw byte. The instruction's end is
`exec_form_served`; the byte adder of R161 is those three rules and one case split on the sign of `e`. -/

namespace Sys2Proof.Machine

/-! ### The rule of the stack-pointer offset -/

/-- The value takes `e` signed: a negative `e` is `e + 0xFF00` modulo 65536 (R160). -/
theorem spOffsetCore_toNat (sp : Word) (e : Byte) (f : Flags) :
    (spOffsetCore sp e f).1.toNat = (sp.toNat + (if e.toNat < 128 then e.toNat else e.toNat + 0xFF00)) % 65536 :=
  signExtend16_toNat e ▸ BitVec.toNat_add sp (signExtend16 e)

/-- The half-carry is the carry out of bit 3 of `SP` plus the raw byte (R160; D10). -/
theorem spOffsetCore_h_iff (sp : Word) (e : Byte) (f : Flags) :
    (spOffsetCore sp e f).2.h = true ↔ sp.toNat % 16 + e.toNat % 16 > 0x0F := by
  rw [← and_000F_toNat, ← lowNibble_eq]
  exact decide_eq_true_iff

/-- The carry is the carry out of bit 7 of `SP` plus the raw byte (R160; D10). -/
theorem spOffsetCore_c_iff (sp : Word) (e : Byte) (f : Flags) :
    (spOffsetCore sp e f).2.c = true ↔ sp.toNat % 256 + e.toNat > 0xFF := by
  rw [← and_00FF_toNat]
  exact decide_eq_true_iff

theorem formNext_ldHLSpOffset_pair (s : State) :
    (formNext .ldHLSpOffset s).pair .HL = (spOffsetCore s.sp s.imm0 s.flags).1 :=
  setPair_pair_same _ .HL _

/-! ### The settled statements -/

/-- Settles O56: `HL` and the flags are the components of the offset core at the byte read, which keeps `Z` and `N`. -/
theorem loadHLFromSpOffset : Obligations.LoadHLFromSpOffset := by
  rintro s n e rfl h
  obtain rfl := imm0_of_served h
  obtain ⟨he, hw, hcost, ha⟩ := exec_form_served (i := .ld_HL_SPe) rfl h rfl
  have hv := formNext_ldHLSpOffset_pair s ▸ spOffsetCore_toNat s.sp s.imm0 s.flags
  exact ⟨_, he, hv, spOffsetCore_h_iff _ _ s.flags, spOffsetCore_c_iff _ _ s.flags, rfl, hw, hcost, ha⟩

/-- Settles O57: a negative `e` adds `e + 0xFF00`, which leaves the low byte's sum and takes one from the high byte. -/
theorem spOffsetEqualsTheByteAdder : Obligations.SpOffsetEqualsTheByteAdder := by
  intro sp e f sum
  have hv := spOffsetCore_toNat sp e f
  have hc := spOffsetCore_c_iff sp e f
  have hsp := sp.isLt
  have he := e.isLt
  refine ⟨?_, hc, spOffsetCore_h_iff sp e f, ?_⟩
  · rw [loByte_toNat, hv]
    split <;> omega
  · rw [hiByte_toNat, hv, toNat_of_eq_true_iff hc]
    by_cases hneg : e.toNat ≥ 128
    · rw [if_neg (Nat.not_lt.mpr hneg), if_pos hneg]
      split <;> omega
    · rw [if_pos (Nat.not_le.mp hneg), if_neg hneg]
      split <;> omega

end Sys2Proof.Machine
end

section
/-! Proofs of the statements of spec/45_stack.md. The end of a PUSH or a POP is `exec_form_served` for its row of two
accesses. A POP whose two bytes are the ones its pair already holds writes `SP` alone (`exec_pop_of_same_bytes`); the
restoring of R170 is that fact, used after a PUSH. -/

namespace Sys2Proof.Machine

/-! ### The flag byte and the flags -/

/-- The byte `F` and the four flags hold the same information (R17). -/
theorem readF_eq_iff {s t : State} : t.readF = s.readF ↔ ∀ f, t.flag f = s.flag f := by
  constructor
  · intro h f
    have hb : t.flags.toByte = s.flags.toByte := h
    simp only [State.flag, Flags.get_eq_decide, hb]
  · intro h
    have hz : t.flags.z = s.flags.z := h .Z
    have hn : t.flags.n = s.flags.n := h .N
    have hh : t.flags.h = s.flags.h := h .Hf
    have hc : t.flags.c = s.flags.c := h .Cf
    simp only [State.readF, Flags.toByte, hz, hn, hh, hc]

/-- The byte `F` reads as keeps its value under the mask of a write (R17). -/
theorem readF_and_F0 (s : State) : s.readF &&& 0xF0 = s.readF :=
  (Flags.toByte_ofByte s.readF).symm.trans (congrArg Flags.toByte (Flags.ofByte_toByte s.flags))

/-! ### Frames and served rows -/

/-- A frame may leave out what was put back, and may name more memory. -/
theorem OnlyWrites.of_restored {w w' : Writes} {s t : State} (h : OnlyWrites w s t)
    (hregs : ∀ r ∈ w.regs, t.reg r = s.reg r) (hflags : ∀ f ∈ w.flags, t.flag f = s.flag f)
    (hsp : w'.sp = false → t.sp = s.sp) (hhalted : w'.halted = false → w.halted = false) (hmem : w.mem ⊆ w'.mem) :
    OnlyWrites w' s t where
  regs r _ := if hr : r ∈ w.regs then hregs r hr else h.regs r hr
  flags f _ := if hf : f ∈ w.flags then hflags f hf else h.flags f hf
  sp := hsp
  halted hw := h.halted (hhalted hw)
  stopped := h.stopped
  mem a ha := h.mem a fun hm => ha (hmem hm)
  schedule := h.schedule
  params := h.params

/-- With the default memory two writes in a row are accepted. -/
theorem served_writes_of_plain {s : State} (h : s.plainMemory = true) (a b : Word) (x y : Byte) :
    Served s [.write a x, .write b y] :=
  ⟨accessFails_of_plain h .write a, accessFails_of_plain (s := s.storeByte a x) h .write b, trivial⟩

/-- With the default memory two reads in a row are answered with the bytes of RAM. -/
theorem served_reads_of_plain {s : State} (h : s.plainMemory = true) (a b : Word) :
    Served s [.read a (s.byteAt a), .read b (s.byteAt b)] :=
  ⟨⟨accessFails_of_plain h .read a, State.readValue_of_ram (isOpen_of_plain h a)⟩,
    ⟨accessFails_of_plain (s := s.takeAnswer a) h .read b,
      State.readValue_of_ram (s := s.takeAnswer a) (isOpen_of_plain h b)⟩, trivial⟩

/-- The bytes a served POP pops are those the collaborator answers at `SP`, then at `SP + 1`. -/
theorem popped_of_served {s : State} {lo hi : Byte} (h : Served s [.read s.sp lo, .read (s.sp + 1) hi]) :
    s.readValue s.sp = lo ∧ (s.takeAnswer s.sp).readValue (s.sp + 1) = hi :=
  ⟨readValue_of_served (before := []) h, readValue_of_served (before := [.read s.sp lo]) h⟩

/-! ### Addresses about `SP` -/

/-- The two bytes of a PUSH go to different addresses, at the wrap of `SP` too. -/
theorem sub_one_ne_sub_two (a : Word) : a - 1 ≠ a - 2 := by bv_omega

/-- The second address of the POP after a PUSH is the first of the PUSH. -/
theorem sub_two_add_one (a : Word) : a - 2 + 1 = a - 1 := by bv_omega

/-! ### The settled statements about one instruction -/

/-- Settles O58: the row of each of the two forms is the high byte's write, then the low byte's at another address. -/
theorem pushWritesHighThenLow : Obligations.PushWritesHighThenLow := by
  intro i hi lo s hf h
  have hne : s.sp - 1 ∉ [s.sp - 2] := mt List.mem_singleton.mp (sub_one_ne_sub_two s.sp)
  rcases hf with ⟨p, hf, rfl, rfl⟩ | ⟨hf, rfl, rfl⟩
  all_goals
    obtain ⟨he, hw, hc, ha⟩ := exec_form_served hf h rfl
    refine ⟨_, he, ?_, ?_, formNext_sp _ s, ?_, hw, hc, ha⟩
    · exact formNext_byteAt_written (before := []) rfl hne
    · exact formNext_byteAt_written (before := [.write (s.sp - 1) _]) rfl List.not_mem_nil
    · simp [formNext]

/-- Settles O59: the two bytes read go to the two halves, which are two registers, or to `A` and, masked, to `F`. -/
theorem popReadsLowThenHigh : Obligations.PopReadsLowThenHigh := by
  constructor
  · intro i p s lo hi hf h
    obtain ⟨rfl, rfl⟩ := popped_of_served h
    obtain ⟨he, hw, hc, ha⟩ := exec_form_served hf h rfl
    exact ⟨_, he, by simp [formNext], by simp [formNext], formNext_sp _ s, by simp [formNext], hw, hc, ha⟩
  · intro s lo hi h
    obtain ⟨rfl, rfl⟩ := popped_of_served h
    obtain ⟨he, hw, hc, ha⟩ := exec_form_served (i := .pop_AF) (f := .popAF) rfl h rfl
    exact ⟨_, he, Flags.toByte_ofByte _, by simp [formNext], formNext_sp _ s, by simp [formNext], hw, hc, ha⟩

/-! ### PUSH, then POP -/

/-- Only `POP AF` has the form of `POP AF`. -/
theorem form_eq_popAF {i : Instr} : i.form = .popAF ↔ i = .pop_AF := by
  cases i <;> simp [Instr.form]

/-- A POP of the bytes its pair already holds writes `SP` and nothing else. -/
theorem exec_pop_of_same_bytes {j : Instr} {hi lo : Byte} {t : State}
    (hj : (∃ p, j.form = .pop p ∧ hi = t.reg p.hi ∧ lo = t.reg p.lo) ∨ (j.form = .popAF ∧ hi = t.reg .A ∧ lo = t.readF))
    (h : Served t [.read t.sp lo, .read (t.sp + 1) hi]) :
    ∃ u, exec j t = .next u ∧ u.sp = t.sp + 2 ∧ u.pc = t.pc ∧ OnlyWrites { sp := true } t u ∧ Charged 1 12 t u := by
  obtain ⟨hpop, hpopAF⟩ := popReadsLowThenHigh
  rcases hj with ⟨p, hf, rfl, rfl⟩ | ⟨hf, rfl, rfl⟩
  · obtain ⟨u, he, hlo, hhi, hsp, hpc, hw, hc, -⟩ := hpop j p t _ _ hf h
    have hregs : ∀ r ∈ [p.hi, p.lo], u.reg r = t.reg r := by simp [hlo, hhi]
    exact ⟨u, he, hsp, hpc, hw.of_restored hregs nofun nofun id (List.Subset.refl _), hc⟩
  · obtain rfl := form_eq_popAF.mp hf
    obtain ⟨u, he, hF, hA, hsp, hpc, hw, hc, -⟩ := hpopAF t _ _ h
    have hflags : ∀ f, u.flag f = t.flag f := readF_eq_iff.mp (hF.trans (readF_and_F0 t))
    have hregs : ∀ r ∈ [Reg.A], u.reg r = t.reg r := by simp [hA]
    exact ⟨u, he, hsp, hpc, hw.of_restored hregs (fun f _ => hflags f) nofun id (List.Subset.refl _), hc⟩

/-- Settles O60: the PUSH leaves the pair's bytes where the POP reads them, so the POP moves `SP` back and nothing else. -/
theorem pushThenPopRestores : Obligations.PushThenPopRestores := by
  intro i j hi lo s hij hplain hbits
  obtain ⟨t, het, hhi, hlo, hspt, hpct, hwt, hct, -⟩ := pushWritesHighThenLow i hi lo s
    (hij.imp (fun ⟨p, hf, _, hb⟩ => ⟨p, hf, hb⟩) fun ⟨hf, _, hb⟩ => ⟨hf, hb⟩) (served_writes_of_plain hplain _ _ hi lo)
  replace hhi := hhi (isOpen_of_plain hplain _)
  replace hlo := hlo (isOpen_of_plain hplain _)
  have hregt : ∀ r, t.reg r = s.reg r := fun r => hwt.regs r List.not_mem_nil
  have hFt : t.readF = s.readF := readF_eq_iff.mpr fun f => hwt.flags f List.not_mem_nil
  have hreads := served_reads_of_plain ((plainMemory_congr hwt.params).trans hplain) (s.sp - 2) (s.sp - 1)
  rw [hhi, hlo, ← sub_two_add_one, ← hspt] at hreads
  simp only [← hregt, ← hFt] at hij
  obtain ⟨u, heu, hspu, hpcu, hwu, hcu⟩ := exec_pop_of_same_bytes
    (hij.imp (fun ⟨p, _, hf, hb⟩ => ⟨p, hf, hb⟩) fun ⟨_, hf, hb⟩ => ⟨hf, hb⟩) hreads
  have hsp : u.sp = s.sp := by rw [hspu, hspt, BitVec.sub_add_cancel]
  have hwu' : OnlyWrites { sp := true, mem := [s.sp - 1, s.sp - 2] } t u :=
    hwu.of_restored nofun nofun nofun id (List.nil_subset _)
  have hw : OnlyWrites { mem := [s.sp - 1, s.sp - 2] } s u :=
    (hwt.trans hwu').of_restored nofun nofun (fun _ => hsp) id (List.Subset.refl _)
  have hmem : ∀ a, u.byteAt a = t.byteAt a := fun a => hwu.mem a List.not_mem_nil
  have hbitst : t.params.clockBits = none := hwt.params ▸ hbits
  refine ⟨t, u, het, heu, fun r => hw.regs r List.not_mem_nil, readF_eq_iff.mpr fun f => hw.flags f List.not_mem_nil, hsp,
    (hmem _).trans hhi, (hmem _).trans hlo, hw, hpcu.trans hpct, hcu.cyclesM, hcu.cyclesT, ?_, ?_⟩
  · simp [hcu.totalM, hct.totalM, hbits, hbitst]
  · simp [hcu.totalT, hct.totalT, hbits, hbitst]

end Sys2Proof.Machine
end

section
/-! Proofs of the statements of spec/60_exceptions.md. What each outside turn does to a state is said once, as an equation of
`applyEvents`, `applyWake` and `applyMemoryReset`; a statement about one step is that equation after `step_of_owner` or
`step_of_memoryReset`. Two turns of the owner raise their events one after the other because no event touches the
schedule (`applyEvents_popTurn`). -/

namespace Sys2Proof.Machine

/-! ### What the raised events do -/

theorem applyEvents_of_reset {ev : Events} (h : ev.reset = true) (s : State) : applyEvents ev s = applyReset s := by
  rw [applyEvents, if_pos h]

theorem applyEvents_start (s : State) : applyEvents { start := true } s = applyStart s := rfl

theorem applyEvents_wake (h : Option Havoc) (s : State) :
    applyEvents { wake := true, havoc := h } s = applyWake h s := rfl

theorem applyEvents_start_wake (h : Option Havoc) (s : State) :
    applyEvents { start := true, wake := true, havoc := h } s = applyWake h (applyStart s) := rfl

/-! ### What a wake writes -/

/-- Nothing but `halted`, if the environment writes nothing or may not write (R178, R181). -/
theorem applyWake_of_quiet {h : Option Havoc} {s : State} (hq : h = none ∨ s.params.wakeHavoc = false) :
    applyWake h s = s.setHalted false := by
  cases h with
  | none => rfl
  | some w =>
    have hw : ¬ s.params.wakeHavoc = true := Bool.eq_false_iff.mp (hq.resolve_left nofun)
    exact if_neg hw

/-- The four writes of the environment besides, under `P_WAKE_HAVOC` (R181; D7). -/
theorem applyWake_of_wakeHavoc {s : State} (w : Havoc) (hw : s.params.wakeHavoc = true) :
    applyWake (some w) s =
      ((((s.setHalted false).setPc w.pc).setSp w.sp).putByte w.sp w.lo).putByte (w.sp + 1) w.hi :=
  if_pos hw

/-- A wake, its environment's writes included, neither reads nor writes `stopped` (R182). -/
theorem applyWake_applyStart (h : Option Havoc) (s : State) : applyWake h (applyStart s) = applyStart (applyWake h s) := by
  cases h with
  | none => rfl
  | some w =>
    simp only [applyWake, applyHavoc, apply_ite applyStart]
    rfl

theorem applyWake_popTurn (h : Option Havoc) (s : State) : applyWake h s.popTurn = (applyWake h s).popTurn := by
  cases h with
  | none => rfl
  | some w =>
    simp only [applyWake, applyHavoc, apply_ite State.popTurn]
    rfl

/-! ### Turns of the owner on the schedule -/

@[simp] theorem applyEvents_schedule (ev : Events) (s : State) : (applyEvents ev s).schedule = s.schedule := by
  simp only [applyEvents]
  split_ifs <;> simp [applyReset, applyStart, applyWake]

/-- No event reads or writes the schedule (log 9). -/
theorem applyEvents_popTurn (ev : Events) (s : State) : applyEvents ev s.popTurn = (applyEvents ev s).popTurn := by
  simp only [applyEvents]
  split_ifs
  · rfl
  · exact applyWake_popTurn ev.havoc (applyStart s)
  · exact applyWake_popTurn ev.havoc s
  · rfl
  · rfl

theorem run_succ_of_step {M : Host.Core} {s t : M.State} (k : Nat) (h : M.step s = .next t) :
    M.run (k + 1) s = M.run k t := by
  rw [Host.Core.run, h]

theorem step_owner_cons (s : State) (ev : Events) (rest : List Turn) :
    step { s with schedule := .owner ev :: rest } = .next (applyEvents ev { s with schedule := rest }) :=
  step_of_owner rfl

/-- Two turns of the owner raise their events one after the other. -/
theorem run_two_owner_turns (s : State) (ev ev' : Events) (rest : List Turn) :
    Host.Core.run Sys2Proof.core 2 { s with schedule := .owner ev :: .owner ev' :: rest } =
      .next (applyEvents ev' (applyEvents ev { s with schedule := rest })) := by
  have hnext : nextTurn (applyEvents ev { s with schedule := .owner ev' :: rest }) = .owner ev' := by simp [nextTurn]
  have hsecond := step_of_owner hnext
  rw [← applyEvents_popTurn] at hsecond
  exact (run_succ_of_step 1 (step_owner_cons s ev _)).trans (run_succ_of_step 0 hsecond)

/-! ### The byte at an address after the memory's own reset -/

theorem applyMemoryReset_byteAt_of_plain {s : State} (image : List (Word × Byte)) (h : s.plainMemory = true) (a : Word) :
    (applyMemoryReset image s).byteAt a = 0x00 := by
  rw [applyMemoryReset, if_pos h]
  rfl

theorem applyMemoryReset_byteAt_of_not_plain {s : State} (image : List (Word × Byte)) (h : s.plainMemory = false)
    (a : Word) : (applyMemoryReset image s).byteAt a = ((image.find? fun e => e.1 == a).map Prod.snd).getD 0x00 := by
  rw [applyMemoryReset, if_neg (Bool.eq_false_iff.mp h)]
  exact Memory.read_ofImage image a

/-! ### The settled statements -/

/-- Settles O27: a `Reset` event gives any state the values of the reset state. -/
theorem resetEventGivesPowerOnValues : Obligations.ResetEventGivesPowerOnValues := by
  obtain ⟨hreg, hF, -, hpc, hsp, hm, ht, hM, hT, hhalted, hstopped, hevent⟩ := resetStateHoldsTheseValues
  intro s ev howner hreset
  exact ⟨_, hevent s ev howner hreset, hreg, hF, hpc, hsp, hm, ht, hM, hT, hhalted, hstopped⟩

/-- Settles O28: a `Reset` keeps the memory, and the memory's own reset writes the memory alone. -/
theorem coreResetAndMemoryResetAreSeparate : Obligations.CoreResetAndMemoryResetAreSeparate := by
  constructor
  · intro s t ev howner hreset h a
    rw [step_of_owner howner, applyEvents_of_reset hreset] at h
    cases h
    rfl
  · intro s image hturn
    exact ⟨_, step_of_memoryReset hturn, applyMemoryReset_byteAt_of_plain (s := s.popTurn) image,
      applyMemoryReset_byteAt_of_not_plain (s := s.popTurn) image, rfl⟩

/-- Settles O29: `Start` is one write of `stopped`, `Wake` one of `halted` and then the environment's four. -/
theorem startAndWakeWriteTheirOwnBit : Obligations.StartAndWakeWriteTheirOwnBit := by
  refine ⟨fun s hturn => ?_, fun s h hturn hquiet => ?_, fun s w hturn hw => ?_⟩
  · rw [step_of_owner hturn, applyEvents_start]
    rfl
  · rw [step_of_owner hturn, applyEvents_wake, applyWake_of_quiet (s := s.popTurn) hquiet]
    rfl
  · rw [step_of_owner hturn, applyEvents_wake, applyWake_of_wakeHavoc (s := s.popTurn) w hw]
    refine ⟨_, rfl, rfl, rfl, ?_, ?_, fun a hlo hhi => ?_, rfl⟩
    · simp
    · simp
    · simp only [State.byteAt_putByte, if_neg hlo, if_neg hhi]
      rfl

/-- Settles O30: `Reset` hides the other events, and `Start` and `Wake` commute. -/
theorem eventsAtOneBoundary : Obligations.EventsAtOneBoundary := by
  constructor
  · intro s ev rest hreset
    rw [step_owner_cons, step_owner_cons, applyEvents_of_reset hreset, applyEvents_of_reset rfl]
  · intro s h rest
    rw [step_owner_cons, run_two_owner_turns, run_two_owner_turns, applyEvents_start_wake, applyEvents_start,
      applyEvents_wake, applyEvents_wake, applyEvents_start, applyWake_applyStart]
    exact ⟨rfl, rfl⟩

end Sys2Proof.Machine
end
